-- ==== Sys2Proof/Word.lean ====
section
/-!
DEFINITION. The word types of the Lentik Boade and their plainest arithmetic (R3, R24, R58).
-/

namespace Sys2Proof

/-- One byte of memory. -/
abbrev Byte := BitVec 8

/-- One data word of a token, of a literal or of memory (R24). -/
abbrev Word := BitVec 32

/-- The word `1` where the condition holds and `0` where it does not (R150, R156). -/
def Word.ofBool (b : Bool) : Word := if b then 1#32 else 0#32

/-- W(v) of R141: an unbounded integer taken modulo 2^32. -/
def Word.wrap (v : Int) : Word := BitVec.ofInt 32 v

end Sys2Proof
end

