-- ==== Sys2Proof/Syntax.lean ====
section
/-!
DEFINITION. The syntax of the Lentik Boade: tags, tokens and words on the move (R24 to R31), the
instruction forms (R86 to R92) and `Instr`, one constructor for each row of the opcode table. A row
with an encoding is an instruction a front end places; a row without one is an event of the part,
whose constructor carries, as plain data, what the event is about.
-/

namespace Sys2Proof

/-- A tag action (R93). Values 0x9 to 0xF are refused and have no constructor. -/
inductive Tact where
  | keep | inc | dec | zero | child | parent | popp | clrp | run1
  deriving DecidableEq, Repr

/-- The access width of LD and ST (R96): the fourth code is refused. -/
inductive Width where
  | byte | half | word
  deriving DecidableEq, Repr

/-- The operations of ATOM and ATOMSC (R97). -/
inductive BankOp where
  | aadd | afadd | amin | amax | aminu | amaxu | aand | aor | axor | aswap | acas | afmin | afmax
  deriving DecidableEq, Repr

/-- The standard form (R86) with its literal word, which is zero when neither `la` nor `lb` is set. -/
structure StdForm where
  tact : Tact
  la : Bool
  lb : Bool
  pr : Bool
  t0 : BitVec 9
  t1 : BitVec 9
  lit : Word
  deriving DecidableEq, Repr

/-- The S form (R88) less its `mod` field, which each instruction fixes or carries beside it. -/
structure SForm where
  seg : BitVec 4
  la : Bool
  lb : Bool
  pr : Bool
  t0 : BitVec 9
  lsid : BitVec 5
  lit : Word
  deriving DecidableEq, Repr

/-- The READ/WRITE form (R89). -/
structure RwForm where
  fw : BitVec 5
  t0 : BitVec 9
  t1 : BitVec 9
  deriving DecidableEq, Repr

/-- The X form (R91) less its `sub` field, which each instruction fixes. -/
structure XForm where
  la : Bool
  t0 : BitVec 9
  t1 : BitVec 9
  lit : Word
  deriving DecidableEq, Repr

/-- The value of a target field that names no target (R87). -/
abbrev noTarget : BitVec 9 := 0x1FF#9

/-- A tag (R25), less RUNM1, which is the token's number of data words minus one. `rdir` is `none` in a token that is
not detoured: the field then reads as zero, which is also the name of instruction 0, port A (R173). -/
structure Tag where
  ctx : BitVec 12
  iter : BitVec 12
  path : BitVec 4
  pdep : BitVec 3
  fmt : BitVec 3
  blk : BitVec 7
  inst : BitVec 7
  port : BitVec 2
  rdir : Option (BitVec 9)
  deriving DecidableEq, Repr

/-- A token (R24): a tag and its run of data words. -/
structure Token where
  tag : Tag
  words : List Word
  deriving DecidableEq, Repr

/-- A place of a hoop that sends and receives tokens (R11, R13): an element of the mesh by its
physical coordinates, a selvage tile, the issue element, the engine port, or a unit of the hoop that
only sends (entry unit, tag allocator, commit logic). -/
inductive Site where
  | elem (x y : Nat)
  | tile (n : Nat)
  | issue
  | port
  | unit
  deriving DecidableEq, Repr

/-- The name of a block instance (R54). -/
structure InstKey where
  blk : BitVec 7
  ctx : BitVec 12
  iter : BitVec 12
  deriving DecidableEq, Repr

/-- The instances whose firings gave a token its words (R192): that of `key` gave them all, or, where `each` is set, it
gave the first word and the instances of the iterations after it gave the words after it. -/
structure Emitter where
  key : InstKey
  each : Bool
  deriving DecidableEq, Repr

/-- A token in flight: the task it belongs to, its source and destination, and the output-queue entry
of the source it left from (R44). `bound` is the scale bound to a part that has been matched before (R174). `emitter` names
the instances that emitted it, and is `none` for a token of a unit of the hoop. -/
structure Flight where
  task : Nat
  src : Site
  dst : Site
  oq : Nat
  tok : Token
  bound : Option (BitVec 8)
  emitter : Option Emitter
  deriving DecidableEq, Repr

/-- One word of a gathered window (R162): its place in the window, its format and the word. Format 7
marks a NULL word. -/
structure Gathered where
  off : Nat
  fmt : BitVec 3
  word : Word
  deriving DecidableEq, Repr

/-- What one word of a firing gives a target: nothing, a NULL word, or a word of a format. -/
inductive Machine.Out where
  | none
  | null
  | data (fmt : BitVec 3) (w : Word)
  deriving DecidableEq, Repr

/-- A complete matched set (R41): the tag it was matched under and the part of each port's token that
covers its `n` iterations, beginning at `tag.iter`. A port that took no token is `none`. `scale` is the
scale of the header bound to a scaled token when it arrived (R174). `win` holds the words of a window
that a gathering instruction completed (R162), and is empty otherwise. `cut` is the number of the task's
next operation when the set became complete (R288). `src` is the source of the token on its lowest-numbered port (R37),
`fired` holds what the words that have fired give in a set that is partly fired (R139), and `flush` names the held words
that a control token flushes (R163). -/
structure Firing where
  task : Nat
  site : Site
  tag : Tag
  n : Nat
  a : Option Token
  b : Option Token
  c : Option Token
  p : Option Token
  scale : BitVec 8
  win : List Gathered
  cut : Nat
  src : Site
  fired : List Machine.Out
  flush : Option Nat
  deriving DecidableEq, Repr

/-- The return route that CALL records in its child context (R202). -/
structure CallRoute where
  tag : Tag
  t0 : BitVec 9
  t1 : BitVec 9
  deriving DecidableEq, Repr

/-- A request for a context (R51, R207): the tag whose (CTX, ITER) keys the child, the block
entered, the call route when a CALL asks, and the tokens to send into the context once it is granted. `entry` marks the
request of the entry unit (R205), which has no parent and no tokens yet. -/
structure CtxRequest where
  task : Nat
  parent : Tag
  target : BitVec 7
  route : Option CallRoute
  sends : List Flight
  entry : Bool
  deriving DecidableEq, Repr

/-- A word on its way through an exit to instruction 0, port A, of a block (R190). -/
structure Delivery where
  tact : Tact
  tag : Tag
  target : BitVec 7
  word : Word
  deriving DecidableEq, Repr

/-- The reply of a bank or a structure unit (R270), with the format of its value and, for a queue
entry, the entry's words. -/
structure BankReply where
  value : Word
  status : BitVec 8
  flags : BitVec 5
  fmt : BitVec 3
  words : List Word
  deriving DecidableEq, Repr

/-- A sending task, as a receiver of its rows names it (R306): its node and its run. -/
structure Sender where
  node : BitVec 14
  task : Nat
  deriving DecidableEq, Repr

/-- One row of a remote write (R419): at most 64 words of one window, from `off`. -/
structure Row where
  sender : Sender
  op : Nat
  j : Nat
  asid : BitVec 16
  dest : BitVec 14
  win : Nat
  off : Nat
  words : List Word
  crcOk : Bool
  deriving DecidableEq, Repr

/-- A remote atomic on its way to its receiver (R420). -/
structure RemoteAtomic where
  sender : Sender
  op : Nat
  j : Nat
  asid : BitVec 16
  dest : BitVec 14
  win : Nat
  off : Nat
  bop : BankOp
  b : Word
  c : Word
  deriving DecidableEq, Repr

/-- One member's contribution to a collective (R421 to R424). `words` is the member's source. `settled` says that the
member's commit token has reached the engine that holds the contribution (R425). `good` says that the code of every line of
the source matched (R431). -/
structure Contribution where
  sender : Sender
  op : Nat
  j : Nat
  gid : Word
  round : Nat
  rank : Nat
  members : Nat
  form : Nat
  redop : Nat
  dt : Nat
  len : Nat
  root : Nat
  words : List Word
  settled : Bool
  good : Bool
  deriving DecidableEq, Repr

/-- A reward on its way to a join engine (R444, R445). -/
structure RewardMsg where
  sender : Sender
  op : Nat
  j : Nat
  asid : BitVec 16
  traj : BitVec 48
  step : Nat
  value : Word
  deriving DecidableEq, Repr

/-- A launch decrement's address (R316): the package physical address of the launch line, or `none`
where a successor address did not translate. The decrements of one task's commit, which `group` names, keep their order; 0 is
that of a host token. -/
structure LaunchRef where
  pa : Option Nat
  group : Nat
  deriving DecidableEq, Repr

/-- A ready notice (R316): the scheduler's tower, the TCB's virtual address and its address space. -/
structure Notice where
  tower : Nat
  tcb : Nat
  asid : BitVec 16
  deriving DecidableEq, Repr

/-- A fault-queue record (R483), by field. `waited` is the model's own: its wait on a full ring has been counted. -/
structure FaultRecord where
  cause : BitVec 8
  hoop : BitVec 6
  qmask : BitVec 4
  asid : BitVec 16
  tcb : BitVec 64
  endtick : BitVec 64
  d0 : Word
  d1 : Word
  d2 : Word
  d3 : Word
  skind : BitVec 4
  src : BitVec 12
  age : BitVec 16
  seq : BitVec 16
  waited : Bool
  deriving DecidableEq, Repr

/-- A host token that waits for its queue: the node that sent it, and its data word (R428). -/
structure HostWord where
  node : BitVec 14
  data : BitVec 64
  deriving DecidableEq, Repr

/-- A write to a system register (R470): the offset from the register base, whether both words of a
64-bit register move at once, the data, and whether the bobbin is the writer (R361, R459). -/
structure RegWrite where
  off : Nat
  wide : Bool
  data : BitVec 64
  bobbin : Bool
  deriving DecidableEq, Repr

/-- A bobbin firmware image as the sideband supplies it (R473). `modulus` is the public key. -/
structure FirmwareImage where
  code : List Byte
  digest : BitVec 256
  signature : Nat
  modulus : Nat
  deriving DecidableEq, Repr

/-- What the ECC of a region finds: in its configuration store as it is scrubbed (R480), or in another store of task state
(R481), `site` as R483 numbers them, at the element or tile in column `x` and row `y`, or in a line of DRAM or shared memory (R481). -/
inductive ScrubFinding where
  | clean
  | corrected (count : Nat)
  | uncorrectable
  | copyLost
  | stateLost (site : BitVec 4) (x y : BitVec 6)
  | lineLost (pa : Nat)
  deriving DecidableEq, Repr

/-- The instructions and events of the part: one constructor per row of the opcode table. -/
inductive Instr where
  /-- ADD (R142): Adds A and B modulo 2^32 for each word of the matched set. -/
  | add (f : StdForm)
  /-- SUB (R142): Subtracts B from A modulo 2^32. -/
  | sub (f : StdForm)
  /-- ADDS (R142): Adds A and B as signed values and saturates the sum to the I32 range. -/
  | adds (f : StdForm)
  /-- SUBS (R142): Subtracts B from A as signed values and saturates the difference. -/
  | subs (f : StdForm)
  /-- ADDUS (R142): Adds A and B as unsigned values and saturates the sum. -/
  | addus (f : StdForm)
  /-- SUBUS (R142): Subtracts B from A as unsigned values and saturates at zero. -/
  | subus (f : StdForm)
  /-- MUL (R142): Emits the low 32 bits of the product of A and B. -/
  | mul (f : StdForm)
  /-- MULH (R142): Emits the high word of the signed 64-bit product of A and B. -/
  | mulh (f : StdForm)
  /-- MULHU (R142): Emits the high word of the unsigned 64-bit product of A and B. -/
  | mulhu (f : StdForm)
  /-- DIV (R143): Divides A by B as signed values, truncating toward zero, with fixed results for a zero divisor and for overflow. -/
  | div (f : StdForm)
  /-- DIVU (R143): Divides A by B as unsigned values, giving 0xFFFF_FFFF for a zero divisor. -/
  | divu (f : StdForm)
  /-- REM (R143): Emits the signed remainder of A divided by B, with fixed edge results. -/
  | rem (f : StdForm)
  /-- REMU (R143): Emits the unsigned remainder of A divided by B, or A when B is zero. -/
  | remu (f : StdForm)
  /-- AND (R144): Emits the bitwise AND of A and B. -/
  | and (f : StdForm)
  /-- OR (R144): Emits the bitwise OR of A and B. -/
  | or (f : StdForm)
  /-- XOR (R144): Emits the bitwise exclusive OR of A and B. -/
  | xor (f : StdForm)
  /-- ANDN (R144): Emits A AND NOT B. -/
  | andn (f : StdForm)
  /-- SHL (R144): Shifts A left by B[4:0] bits. -/
  | shl (f : StdForm)
  /-- SHR (R144): Shifts A right by B[4:0] bits, filling with zeros. -/
  | shr (f : StdForm)
  /-- SAR (R144): Shifts A right by B[4:0] bits, filling with the sign bit. -/
  | sar (f : StdForm)
  /-- ROL (R144): Rotates A left by B[4:0] bits. -/
  | rol (f : StdForm)
  /-- CLZ (R145): Counts the leading zero bits of A. -/
  | clz (f : StdForm)
  /-- CTZ (R145): Counts the trailing zero bits of A. -/
  | ctz (f : StdForm)
  /-- POPC (R145): Counts the one bits of A. -/
  | popc (f : StdForm)
  /-- BREV (R145): Reverses the bit order of A. -/
  | brev (f : StdForm)
  /-- MIN (R146): Emits the lesser of A and B, read as signed values. -/
  | min (f : StdForm)
  /-- MAX (R146): Emits the greater of A and B, read as signed values. -/
  | max (f : StdForm)
  /-- MINU (R146): Emits the lesser of A and B, read as unsigned values. -/
  | minu (f : StdForm)
  /-- MAXU (R146): Emits the greater of A and B, read as unsigned values. -/
  | maxu (f : StdForm)
  /-- ABS (R146): Emits the absolute value of A, wrapping at the negative extreme. -/
  | abs (f : StdForm)
  /-- NEG (R146): Emits 0 − A modulo 2^32. -/
  | neg (f : StdForm)
  /-- SEL (R147): Emits A when C is nonzero, otherwise B, unchanged and in their common format. -/
  | sel (f : StdForm)
  /-- EXTB (R148): Extracts the byte of A that B selects, sign- or zero-extended. -/
  | extb (f : StdForm)
  /-- EXTH (R148): Extracts the halfword of A that B selects, sign- or zero-extended. -/
  | exth (f : StdForm)
  /-- BFX (R149): Extracts the bit field of A that the control word on B describes. -/
  | bfx (f : StdForm)
  /-- BFI (R149): Inserts the low bits of C into the field of A that B describes. -/
  | bfi (f : StdForm)
  /-- TEQ (R150): Emits 1 when A equals B, else 0. -/
  | teq (f : StdForm)
  /-- TNE (R150): Emits 1 when A differs from B, else 0. -/
  | tne (f : StdForm)
  /-- TLT (R150): Emits 1 when A is less than B as signed values. -/
  | tlt (f : StdForm)
  /-- TLE (R150): Emits 1 when A is at most B as signed values. -/
  | tle (f : StdForm)
  /-- TLTU (R150): Emits 1 when A is less than B as unsigned values. -/
  | tltu (f : StdForm)
  /-- TLEU (R150): Emits 1 when A is at most B as unsigned values. -/
  | tleu (f : StdForm)
  /-- MULADD (R142): Emits the low word of A × B + C. -/
  | muladd (f : StdForm)
  /-- FADD (R152): Adds two F32 values with one RNE rounding. -/
  | fadd (f : StdForm)
  /-- FSUB (R152): Subtracts two F32 values with one RNE rounding. -/
  | fsub (f : StdForm)
  /-- FMUL (R152): Multiplies two F32 values with one RNE rounding. -/
  | fmul (f : StdForm)
  /-- FFMA (R152): Computes A × B + C in F32 with a single rounding. -/
  | ffma (f : StdForm)
  /-- FFMS (R152): Computes A × B − C in F32 with a single rounding. -/
  | ffms (f : StdForm)
  /-- FMIN (R153): Returns the lesser F32 operand under the NaN and signed-zero rules. -/
  | fmin (f : StdForm)
  /-- FMAX (R153): Returns the greater F32 operand under the NaN and signed-zero rules. -/
  | fmax (f : StdForm)
  /-- FABS (R154): Clears the sign bit of A, canonicalising NaNs. -/
  | fabs (f : StdForm)
  /-- FNEG (R154): Inverts the sign bit of A, canonicalising NaNs. -/
  | fneg (f : StdForm)
  /-- FEQ (R156): Emits 1 when the F32 operands compare equal. -/
  | feq (f : StdForm)
  /-- FLT (R156): Emits 1 when A is less than B as F32 values. -/
  | flt (f : StdForm)
  /-- FLE (R156): Emits 1 when A is at most B as F32 values. -/
  | fle (f : StdForm)
  /-- FUNO (R156): Emits 1 when either F32 operand is a NaN. -/
  | funo (f : StdForm)
  /-- FCLASS (R155): Emits a one-hot word naming the class of A. -/
  | fclass (f : StdForm)
  /-- FRND (R157): Rounds A to an integral F32 value in the mode that B selects. -/
  | frnd (f : StdForm)
  /-- FDIV (R158): Divides A by B, correctly rounded, over four passes. -/
  | fdiv (f : StdForm)
  /-- FSQRT (R158): Computes the correctly rounded square root of A. -/
  | fsqrt (f : StdForm)
  /-- FRCP (R158): Computes the correctly rounded reciprocal of A. -/
  | frcp (f : StdForm)
  /-- FRSQ (R158): Computes the correctly rounded reciprocal square root of A. -/
  | frsq (f : StdForm)
  /-- FEXP2 (R158): Computes 2^A correctly rounded. -/
  | fexp2 (f : StdForm)
  /-- FLOG2 (R158): Computes log2 of A correctly rounded. -/
  | flog2 (f : StdForm)
  /-- MOV (R182): Emits each word of A unchanged to t0 and then t1. -/
  | mov (f : StdForm)
  /-- NULL (R183): Emits one NULL word for each word of A. -/
  | nullTok (f : StdForm)
  /-- STEER (R185): Sends each word of A to t0 or t1 by C, optionally pushing a path bit. -/
  | steer (f : StdForm)
  /-- MERGE (R186): Forwards a single token arriving on A or B, joining control tokens from both ports. -/
  | merge (f : StdForm)
  /-- EXIT (R189): Counts the instance's exit and delivers a continuing exit at once or holds a leaving exit and squashes later instances. -/
  | exit (exit : BitVec 3)
  /-- READ (R196): Emits the committed content of a frame word after the previous instance commits where required. -/
  | read (f : RwForm)
  /-- WRITE (R195): Stages a word for a frame word of the instance, counts it and forwards the word. -/
  | write (f : RwForm)
  /-- LOOPI (R197): Starts a counted loop issue of n iterations with their indices and last flags. -/
  | loopi (f : StdForm)
  /-- BREAK (R200): Forwards its word and, when nonzero, squashes later instances and ends the LOOPI issue. -/
  | brk (f : StdForm)
  /-- CALL (R202): Obtains a child context, records the return route and sends A to the callee's instruction 0. -/
  | call (f : StdForm)
  /-- RET (R203): Counts as the instance's exit and returns A to the caller's recorded targets at commit. -/
  | ret (f : StdForm)
  /-- ITERV (R211): Emits the iteration number of each word as I32. -/
  | iterv (f : StdForm)
  /-- CTXV (R211): Emits the context number as I32. -/
  | ctxv (f : StdForm)
  /-- WORKID (R212): Emits one field of the context's work identifier. -/
  | workid (f : StdForm)
  /-- PMARK (R213): Forwards its words and counts one progress mark per non-NULL word. -/
  | pmark (f : StdForm)
  /-- COMB (R215): Combines arrivals per iteration in the matching store and emits the accumulator after the set count. -/
  | comb (f : StdForm)
  /-- EOS (R285): As source, emits an EOS token per data word; as sink, sets its arrival bit and may complete a phase. -/
  | eos (f : StdForm)
  /-- BARR (R285): As source, emits BARRIER tokens; as sink, sets its arrival bit and may complete the barrier. -/
  | barr (f : StdForm)
  /-- BWAIT (R287): Waits until a barrier's completion count or the phase count reaches the target, then forwards A. -/
  | bwait (f : StdForm)
  /-- FENCE (R288): Waits until earlier reads and at-once operations of the task have performed at the scope, then forwards A. -/
  | fence (f : StdForm)
  /-- SPLIT (R164): Cuts runs of A at aligned boundaries of 2^L iterations. -/
  | split (f : StdForm)
  /-- JOIN (R166): Gathers words into aligned windows and emits each complete window as one run. -/
  | join (f : StdForm)
  /-- HDRT (R177): Adjusts a header's scale by a signed exponent delta, clamping with flags. -/
  | hdrt (f : StdForm)
  /-- LD (R237): Loads a byte, half or word at the offset and emits it as I32. -/
  | ld (f : SForm) (width : Width) (sx : Bool)
  /-- ST (R237): Stages a byte, half or word store, counts its LSID and forwards the value. -/
  | st (f : SForm) (width : Width)
  /-- LDV (R237): Loads a whole word of the named data format unchanged. -/
  | ldv (f : SForm) (fmt : BitVec 3)
  /-- STV (R237): Stages a whole word of the named format and counts its LSID. -/
  | stv (f : SForm) (fmt : BitVec 3)
  /-- SOPEN_READ (R243): Opens an affine read stream that emits elements at successive iterations. -/
  | sopenRead (f : SForm) (fmt : BitVec 3)
  /-- SOPEN_WRITE (R243): Opens an affine write stream that stages port C words as elements. -/
  | sopenWrite (f : SForm) (fmt : BitVec 3)
  /-- SIND_READ (R241): Opens an indirect read stream addressed through an index array. -/
  | sindRead (f : SForm) (fmt : BitVec 3)
  /-- SIND_WRITE (R241): Opens an indirect write stream addressed through an index array. -/
  | sindWrite (f : SForm) (fmt : BitVec 3)
  /-- SCLOSE (R246): Waits for a stream's begun accesses and closes it, then forwards A. -/
  | sclose (f : SForm)
  /-- SBAR (R247): Holds the streams of the hold mask until the wait-mask streams' earlier accesses have performed. -/
  | sbar (f : SForm)
  /-- IREAD (R260): Reads a structure word, returning it when full or joining its reader list. -/
  | iread (f : SForm)
  /-- IWRITE (R261): Marks a structure word provisional and stages the write, faulting on a full or provisional word. -/
  | iwrite (f : SForm)
  /-- ICLEAR (R262): Stages a clear of a structure word and counts its LSID. -/
  | iclear (f : SForm)
  /-- AADD (R267): Bank atomic wrapping integer add, posted or fetching. -/
  | aadd (f : SForm)
  /-- AFADD (R267): Bank atomic F32 add rounded once. -/
  | afadd (f : SForm)
  /-- AMIN (R267): Bank atomic signed minimum. -/
  | amin (f : SForm)
  /-- AMAX (R267): Bank atomic signed maximum. -/
  | amax (f : SForm)
  /-- AMINU (R267): Bank atomic unsigned minimum. -/
  | aminu (f : SForm)
  /-- AMAXU (R267): Bank atomic unsigned maximum. -/
  | amaxu (f : SForm)
  /-- AAND (R267): Bank atomic AND. -/
  | aand (f : SForm)
  /-- AOR (R267): Bank atomic OR. -/
  | aor (f : SForm)
  /-- AXOR (R267): Bank atomic exclusive OR. -/
  | axor (f : SForm)
  /-- ASWAP (R267): Bank atomic swap returning the old value. -/
  | aswap (f : SForm)
  /-- ACAS (R267): Bank atomic bitwise compare-and-swap. -/
  | acas (f : SForm)
  /-- AFMIN (R267): Bank atomic F32 minimum. -/
  | afmin (f : SForm)
  /-- AFMAX (R267): Bank atomic F32 maximum. -/
  | afmax (f : SForm)
  /-- ATOMSC (R271): Sequentially consistent bank atomic performed only while the bank holds the serialising token. -/
  | atomsc (f : SForm) (op : BankOp)
  /-- LOCK (R272): Requests the bank lock slot covering a word and emits a LOCK token on grant. -/
  | lock (f : SForm)
  /-- UNLOCK (R274): Releases a held lock and emits its B word on acknowledgement. -/
  | unlock (f : SForm)
  /-- QPUT (R279): Gathers a window of E words and appends them as one queue entry. -/
  | qput (f : SForm)
  /-- QGET (R280): Takes one entry from a queue and emits its words at consecutive iterations. -/
  | qget (f : SForm)
  /-- CVT (R170): Converts a word between formats under the control literal's pair and rounding form. -/
  | cvt (f : StdForm)
  /-- PADD2 (R169): Adds packed BF16 or binary16 lanes, rounding each lane. -/
  | padd2 (f : StdForm)
  /-- PMUL2 (R169): Multiplies packed lanes, rounding each lane. -/
  | pmul2 (f : StdForm)
  /-- PFMA2 (R169): Fused multiply-add on packed lanes with one rounding per lane. -/
  | pfma2 (f : StdForm)
  /-- DOT2 (R169): Adds a two-lane packed dot product to an F32 addend with one rounding. -/
  | dot2 (f : StdForm)
  /-- DOT4 (R169): Adds a four-lane INT8 dot product to an I32 addend, wrapping. -/
  | dot4 (f : StdForm)
  /-- REORD (R167): Gathers windows of P × Q iterations and emits them transposed. -/
  | reord (f : StdForm)
  /-- QSEND (R178): Gathers F32 blocks, quantises each to a scale and codes, and emits a header and a scaled token. -/
  | qsend (f : StdForm)
  /-- OSLOT_CLAIM (R393): Claims the lowest free operand slot, waiting when none is free, and emits its number. -/
  | oslotClaim (f : StdForm)
  /-- OSLOT_RELEASE (R393): Frees a slot after earlier users complete, faulting on a free slot. -/
  | oslotRelease (f : StdForm)
  /-- OPLOAD_DENSE (R395): Loads a dense operand image into a slot, optionally transposed. -/
  | oploadDense (f : StdForm)
  /-- OPLOAD_SPARSE (R397): Opens a coordinate load into a slot that port C words fill until EOS. -/
  | oploadSparse (f : StdForm)
  /-- OPLOAD_CODEBOOK (R398): Loads 16 BF16 entries into a codebook register as one. -/
  | oploadCodebook (f : StdForm)
  /-- MMA (R400): Multiplies two slot tiles and accumulates into an accumulator in K-group order. -/
  | mma (f : StdForm)
  /-- ACC_ZERO (R403): Sets an accumulator region to +0. -/
  | accZero (f : StdForm)
  /-- ACC_READ (R403): Emits an accumulator region as F32 runs after earlier changes. -/
  | accRead (f : StdForm)
  /-- ACC_PEEK (R404): Reads an accumulator region without waiting for MMAs in flight. -/
  | accPeek (f : StdForm)
  /-- ACC_WRITE (R403): Loads an accumulator region from a memory image bit for bit. -/
  | accWrite (f : StdForm)
  /-- ACC_STORE (R403): Stages an accumulator region into a memory image. -/
  | accStore (f : StdForm)
  /-- TOPUP (R369): Asks the package pool for packets within the allowance and emits the grant. -/
  | topup (f : XForm)
  /-- TACK (R371): Drains the task's committed effects so far and records the resume word. -/
  | tack (f : XForm)
  /-- LEAVE (R373): Asks a domain's meter for leave and emits B once the ceiling reaches it. -/
  | leave (f : XForm)
  /-- METER (R374): Emits a snapshot of a meter quantity chosen by the selector. -/
  | meter (f : XForm)
  /-- GRANT (R375): Raises the top-up allowance of the task holding a named quadrant. -/
  | grant (f : XForm)
  /-- RESUMEV (R372): Emits the carried RESUME value and TACKS count. -/
  | resumev (f : XForm)
  /-- LAUNCH (R329): Records a launch line to be decremented at task commit. -/
  | launch (f : XForm)
  /-- NEXTW (R330): Asks the entry unit for the next injection and emits whether work remains. -/
  | nextw (f : XForm)
  /-- TRAP (R331): Faults the task with F_TRAP carrying the code. -/
  | trap (f : XForm)
  /-- SRD (R332): Reads a system register at an offset from the register base. -/
  | srd (f : XForm)
  /-- SWR (R332): Writes a system register at an offset from the register base. -/
  | swr (f : XForm)
  /-- TIME (R333): Emits the package time counter's low and high words. -/
  | time (f : XForm)
  /-- FREEZE (R335): Halts a named quadrant's task, engine or node traffic. -/
  | freeze (f : XForm)
  /-- THAW (R336): Resumes, releases or dumps a frozen master according to the action word. -/
  | thaw (f : XForm)
  /-- PREEMPT (R337): Pre-empts the task holding a named quadrant in the given mode. -/
  | preempt (f : XForm)
  /-- COPY (R414): Hands the copy engine a strided copy command. -/
  | copy (f : XForm)
  /-- GATHER (R415): Hands the gather engine an indexed gather command. -/
  | gather (f : XForm)
  /-- SCATTER (R415): Hands the gather engine an indexed scatter command. -/
  | scatter (f : XForm)
  /-- ALLREDUCE (R423): Collective that combines every member's block and gives the result to all. -/
  | allreduce (f : XForm)
  /-- ALLGATHER (R423): Collective that concatenates every member's block at every member. -/
  | allgather (f : XForm)
  /-- REDUCESCATTER (R423): Collective that combines blocks and gives block r to member r. -/
  | reducescatter (f : XForm)
  /-- BROADCAST (R423): Collective that copies the root's block to every member. -/
  | broadcast (f : XForm)
  /-- REMWR (R419): Sends data as rows into landing windows at up to 16 receivers. -/
  | remwr (f : XForm)
  /-- REMATOM (R420): Applies an atomic at a remote atomic window and returns the old value. -/
  | rematom (f : XForm)
  /-- LWOPEN (R416): Opens a landing window entry for the task's address space. -/
  | lwopen (f : XForm)
  /-- LWCLOSE (R417): Closes a landing window once no word of it is provisional. -/
  | lwclose (f : XForm)
  /-- EPOPEN (R442): Opens an episode in the join table bound to the context. -/
  | epopen (f : XForm)
  /-- EPSTEP (R443): Appends a step record to the context's open episode. -/
  | epstep (f : XForm)
  /-- EPEND (R443): Closes the context's episode with its bootstrap and done values. -/
  | epend (f : XForm)
  /-- RWSEND (R444): Sends a reward for one step of a trajectory to its join engine. -/
  | rwsend (f : XForm)
  /-- JCFG (R438): Configures the tower's join engine from a descriptor. -/
  | jcfg (f : XForm)
  /-- LVSET (R439): Sets the join engine's learner version. -/
  | lvset (f : XForm)
  /-- JSTAT (R452): Reads, and optionally clears, a join-engine counter. -/
  | jstat (f : XForm)
  /-- TOKEN_ARRIVAL (R40): A token reaches an element's matching stage, is checked and pairs, waits or spills. -/
  | tokenArrival (fl : Flight)
  /-- SPILL_SEARCH (R48): Searches the spill area for partners of a held arrival and brings them back. -/
  | spillSearch (fl : Flight)
  /-- HELD_TOKEN_ACCEPT (R43): A port holding a completing token accepts it once a firing frees an entry. -/
  | heldTokenAccept (fl : Flight)
  /-- HEADER_LATCH_FREED (R175): An HDR token waiting in the holding place takes a freed latch. -/
  | headerLatchFreed (fl : Flight)
  /-- TOKEN_ROUTE (R39): A router forwards or deflects a token in flight on the hoop network. -/
  | tokenRoute (fl : Flight)
  /-- CONTEXT_GRANT (R207): The tag allocator grants a queued context request. -/
  | contextGrant (r : CtxRequest)
  /-- SWEEP_START (R53): The tag allocator starts a hoop sweep for retired contexts or squash records. -/
  | sweepStart (hoop : Nat)
  /-- SWEEP_END (R53): A sweep marker has crossed every link; contexts retired before it are freed. -/
  | sweepEnd (hoop : Nat)
  /-- INSTANCE_COMMIT (R190): A complete instance commits its frame writes and flags, advances the window and delivers its held exit. -/
  | instanceCommit (task : Nat) (inst : InstKey)
  /-- HELD_EXIT_DELIVERY (R190): An exit delivery held behind a squash record is delivered once the record clears. -/
  | heldExitDelivery (task : Nat) (d : Delivery)
  /-- ENTRY_INJECTION (R325): The entry unit allocates a context, sets its frame words and delivers the next work identifier. -/
  | entryInjection (task : Nat)
  /-- LOOPI_ISSUE (R198): LOOPI issues a further run of admitted iterations from its saved state. -/
  | loopiIssue (task id : Nat)
  /-- HELD_FAULT_RECHECK (R232): A held access fault is checked again when its instance becomes the window base. -/
  | heldFaultRecheck (task op j : Nat)
  /-- LOAD_ORDER_RELEASE (R230): A load-like access waiting on the previous instance proceeds after it commits or is squashed. -/
  | loadOrderRelease (task op j : Nat)
  /-- TRANSLATION_WALK (R227): A table walk completes and fills the translation cache and micro-TLB or reports a fault. -/
  | translationWalk (task op j : Nat)
  /-- READ_COMPLETE (R231): Read data returns to a selvage tile and the loaded words are emitted. -/
  | readComplete (task op j : Nat)
  /-- STREAM_ENGINE_ACQUIRE (R239): A waiting opener takes a freed stream engine or SID. -/
  | streamEngineAcquire (task op j : Nat)
  /-- CIRCUIT_SETUP (R245): A circuit to a remote scratchpad is set up once both ends have a free circuit. -/
  | circuitSetup (task op j : Nat)
  /-- STREAM_ELEMENT_ACCESS (R243): A stream engine performs an element access and emits or stages the element. -/
  | streamElementAccess (task sid : Nat)
  /-- STREAM_DATA_ARRIVAL (R243): A port C word arrives for an open write stream and is staged or buffered. -/
  | streamDataArrival (fl : Flight)
  /-- SCOREBOARD_WAIT_END (R250): An access waiting on a registered scratchpad range proceeds once the entry retires. -/
  | scoreboardWaitEnd (task op j : Nat)
  /-- AT_ONCE_RELEASE (R257): An at-once operation leaves its site once its instance becomes the window base. -/
  | atOnceRelease (task op j : Nat)
  /-- BANK_OPERATION (R73): A bank applies an arriving atomic or lock or queue request to its word. -/
  | bankOperation (task op j : Nat)
  /-- BANK_REPLY (R270): A bank reply reaches the selvage tile and its value is emitted. -/
  | bankReply (task op j : Nat) (r : BankReply)
  /-- ATOMSC_TOKEN_VISIT (R271): The serialising token reaches a bank, which performs up to four waiting ATOMSC operations. -/
  | atomscTokenVisit (bank : Nat)
  /-- STRUCT_REQUEST (R260): A structure unit serves a read or mark request by the word's state. -/
  | structRequest (task op j : Nat)
  /-- STRUCT_POOL_WAIT_END (R260): A read request waiting for a reader entry takes a freed one. -/
  | structPoolWaitEnd (task op j : Nat)
  /-- READER_CANCEL (R266): A structure unit cancels the reader entries of a squashed, aborted or committing task. -/
  | readerCancel (task id : Nat)
  /-- LOCK_RELEASE (R274): A bank takes a lock release, acknowledges it and grants the slot to the first waiter. -/
  | lockRelease (task op j : Nat)
  /-- LOCK_TILE_WAIT_END (R272): A lock request waiting at its tile enters the bank's queue once room frees. -/
  | lockTileWaitEnd (task op j : Nat)
  /-- QUEUE_PUT_SERVE (R279): The control bank writes a waiting QPUT entry once the queue has room. -/
  | queuePutServe (task op j : Nat)
  /-- QUEUE_GET_SERVE (R280): The control bank serves a waiting QGET once an entry is available. -/
  | queueGetServe (task op j : Nat)
  /-- QUEUE_WAIT_EXPIRE (R281): A waiting queue request expires at its limit, trapping or faulting with F_QWAIT. -/
  | queueWaitExpire (task op j : Nat)
  /-- ENGINE_PORT_DEPART (R412): An engine command leaves the engine port once its instance is base and the port has room. -/
  | enginePortDepart (task op j : Nat)
  /-- ENGINE_COMMAND_START (R409): An engine takes a command in round-robin order and begins it. -/
  | engineCommandStart (tower engine : Nat)
  /-- ENGINE_COMMAND_COMPLETE (R412): An engine command completes and emits its completion token under its release flag. -/
  | engineCommandComplete (task op j : Nat)
  /-- ROW_LANDING (R419): A receiver's collective engine checks a row and makes its words provisional or rejects it. -/
  | rowLanding (row : Row)
  /-- LANDING_ACK (R306): A landing acknowledgement reaches the sender and counts toward command completion. -/
  | landingAck (task op j : Nat) (node : BitVec 14)
  /-- FAILURE_ACK (R419): A failure acknowledgement reaches the sender, which aborts with F_REMOTE. -/
  | failureAck (task op j : Nat) (node : BitVec 14) (reason : BitVec 8)
  /-- COMMIT_TOKEN_RECEIVE (R306): A receiver makes every word provisional under the sender full and acknowledges. -/
  | commitTokenReceive (sender : Sender)
  /-- ABORT_TOKEN_RECEIVE (R306): A receiver returns every word provisional under the sender to deferred or empty. -/
  | abortTokenReceive (sender : Sender)
  /-- REMOTE_ATOMIC_RECEIVE (R420): A receiver checks a remote atomic against its window and applies it at the bank. -/
  | remoteAtomicReceive (m : RemoteAtomic)
  /-- REMOTE_ATOMIC_REPLY (R420): A remote atomic's reply reaches the sender, which emits the old value. -/
  | remoteAtomicReply (task op j : Nat) (value : Word) (flags : BitVec 5)
  /-- COLL_CONTRIBUTION (R424): A collective engine takes a member's contribution and combines or rejects it. -/
  | collContribution (c : Contribution)
  /-- HOST_QUEUE_WAIT_END (R428): A host token held by a full queue is appended once room frees. -/
  | hostQueueWaitEnd (chan : Nat) (token : HostWord)
  /-- LAUNCH_DECREMENT (R316): A bank decrements a launch line's COUNT and sends a ready notice at zero. -/
  | launchDecrement (line : LaunchRef)
  /-- READY_NOTICE_WAIT_END (R316): A ready notice waiting at its bank enters a scheduler queue that has room. -/
  | readyNoticeWaitEnd (n : Notice)
  /-- READINESS_CHECK (R313): The scheduler reads and checks a ready task's TCB, parking it with F_ILL on a defect. -/
  | readinessCheck (n : Notice)
  /-- SCHEDULER_SCAN (R319): On a change, the scheduler scans ready tasks in order and places those that fit. -/
  | schedulerScan (tower : Nat)
  /-- BLOCK_FETCH (R107): The front end completes fetching the task's block images, or faults. -/
  | blockFetch (task : Nat)
  /-- LAUNCH_RESOURCES (R322): A placed task takes its context reserve, barriers and engine-port slots as they become free. -/
  | launchResources (task : Nat)
  /-- METER_LEVEL (R356): A meter levels its domain and starts filling connected segments, or refuses the task. -/
  | meterLevel (task : Nat)
  /-- FILL_COMPLETE (R360): A domain's store reaches Vf or the account empties, ending the fill. -/
  | fillComplete (task dom : Nat)
  /-- PLACEMENT_CHECK (R108): The front end checks every block and places the task or refuses it. -/
  | placementCheck (task : Nat)
  /-- TASK_COMMIT (R300): A task that ended begins commit by closing streams and waiting for outstanding operations. -/
  | taskCommit (task : Nat)
  /-- COMMIT_DRAIN (R298): The committed set drains, plain lines first and then structure and posted operations. -/
  | commitDrain (task : Nat)
  /-- COMMIT_TOKEN_SEND (R300): Once drained writes have performed, commit tokens go to every landing-window receiver. -/
  | commitTokenSend (task : Nat)
  /-- COMMIT_RELEASE (R300): After acknowledgements, bank flags merge, report fields are written and successors decremented. -/
  | commitRelease (task : Nat)
  /-- TASK_ABORT (R339): A fault or stop cause aborts the task and starts its cleanup. -/
  | taskAbort (task : Nat)
  /-- PARK (R341): After outstanding operations complete, the task's reports are written and its resources freed. -/
  | park (task : Nat)
  /-- FAULT_QUEUE_APPEND (R342): A fault record is appended to the tower's fault queue once it has room. -/
  | faultQueueAppend (tower : Nat) (r : FaultRecord)
  /-- PREEMPT_FREEZE (R344): A pre-emption halts the task's elements and aborts or begins a save. -/
  | preemptFreeze (task : Nat) (save : Bool)
  /-- PREEMPT_SAVE (R345): After quiescing, the task's state is written to its save area and it is re-queued. -/
  | preemptSave (task : Nat)
  /-- RESTORE (R347): A saved task is placed, filled from its saved account and its state reloaded. -/
  | restoreTask (task : Nat)
  /-- TOPUP_POOL_SERVE (R369): The package pool serves a top-up request and debits the grant. -/
  | topupPoolServe (task op j : Nat)
  /-- TOPUP_APPLY (R370): A pool reply reaches the meter and the grant is added to the account. -/
  | topupApply (task op j granted : Nat)
  /-- TARGET_MOVE_COMPLETE (R379): A fill-voltage move completes and any pending target starts the next. -/
  | targetMoveComplete (hoop dom : Nat)
  /-- LEAVE_CEILING_RAISE (R377): The meter's ceiling ramps toward the need and waiting operations start in order. -/
  | leaveCeilingRaise (hoop dom : Nat)
  /-- MMA_COMPLETE (R401): An MMA finishes its groups, releases its leave and emits its slot words. -/
  | mmaComplete (task op j : Nat)
  /-- OPLOAD_COMPLETE (R395): An operand load's last byte is written; the slot becomes READY and the slot-ready token is emitted. -/
  | oploadComplete (task op j : Nat)
  /-- SPARSE_COORDINATE (R397): A coordinate word or EOS arrives for an open sparse load. -/
  | sparseCoordinate (fl : Flight)
  /-- REWARD_ARRIVAL (R445): A join engine judges an arriving reward and lands, orphans or rejects it. -/
  | rewardArrival (m : RewardMsg)
  /-- EPISODE_SCAN (R448): The join engine scans a whole episode backward to form advantages and returns. -/
  | episodeScan (tower entry : Nat)
  /-- EPISODE_RELEASE (R450): At its turn, a held episode is released to the learner queue or cleared as stale. -/
  | episodeRelease (tower entry : Nat)
  /-- TLB_INVALIDATE_DONE (R478): An invalidation finishes and BUSY clears. -/
  | tlbInvalidateDone
  /-- SENSOR_SAMPLE (R457): Every diode is sampled and converted, and the trip and refresh thresholds are compared. -/
  | sensorSample
  /-- CONTROL_PERIOD (R459): The bobbin snapshots sensors and counters and writes targets, cap and status. -/
  | controlPeriod
  /-- WATCHDOG_FIRE (R464): BEAT unchanged for four periods writes 700 mV targets and sets WDOG. -/
  | watchdogFire
  /-- FEED_WINDOW (R462): A 10,000-tick feed-governor window begins and the throttle lifts. -/
  | feedWindow
  /-- FEEDCAP_REACHED (R462): A window's pump-rail energy reaches the cap and pumps hold below Vf. -/
  | feedcapReached
  /-- PUMP_RAIL_LOW (R456): The pump rail falls below 1.00 V and every pump stalls. -/
  | pumpRailLow
  /-- PUMP_RAIL_RESTORE (R456): The pump rail rises above 1.02 V and pumps resume. -/
  | pumpRailRestore
  /-- PACKAGE_TICK (R6): The package time counter advances by one tick. -/
  | packageTick
  /-- DRAM_TRAIN (R472): The bobbin trains DRAM and zeroes memory, then the pump rail is enabled. -/
  | dramTrain
  /-- HOST_TOKEN (R428): A host token on an ingress channel is delivered as a launch or queue append, or dropped. -/
  | hostToken (chan : Nat) (node : BitVec 14) (data : BitVec 64)
  /-- FLIT_RECEIVE (R430): A link receiver checks a flit and acknowledges it. -/
  | flitReceive (port : Nat) (good : Bool)
  /-- FLIT_RETRY (R430): On a bad or missing acknowledgement the sender resends from the first unacknowledged flit. -/
  | flitRetry (port : Nat)
  /-- LINK_DOWN (R430): A port fails 16 successive retries, goes down and fails its in-flight traffic. -/
  | linkDown (port : Nat)
  /-- LINK_RETRAIN (R482): A down port retrains on the sideband port command. -/
  | linkRetrain (port : Nat)
  /-- QUIESCENCE_TIMEOUT (R217): The quiescence count reaches the window and the task faults with F_QUIET. -/
  | quiescenceTimeout (task : Nat)
  /-- AGING_STEP (R318): A ready task's effective priority rises by one aging step. -/
  | agingStep (tower task : Nat)
  /-- PUMP_FEED (R358): A domain's pump feeds strokes from the account while the store is below Vf. -/
  | pumpFeed (hoop dom strokes : Nat)
  /-- FLOOR_STOP (R359): A domain's store reaches the floor and the task ends with F_SHORT. -/
  | floorStop (hoop dom : Nat)
  /-- LEAVE_CEILING_FALL (R377): After 1,000 ticks without a start, the ceiling falls to committed leave. -/
  | leaveCeilingFall (hoop dom : Nat)
  /-- LEAVE_VIOLATION (R378): A master drawing above its step for 100 ns takes F_LEAVE and is frozen. -/
  | leaveViolation (task : Nat) (master : Word) (committed drawn : Nat)
  /-- EPISODE_DEADLINE (R447): A closed episode's deadline tick ends and it becomes EXPIRED. -/
  | episodeDeadline (tower entry : Nat)
  /-- PK_POOL_WRITE (R353): A write replaces the pool's stroke count. -/
  | pkPoolWrite (w : RegWrite)
  /-- QM_TARGET_WRITE (R379): A write places a clamped target fill voltage in the domain's mailbox. -/
  | qmTargetWrite (w : RegWrite)
  /-- QM_CTL_WRITE (R361): A write sets a domain's mode and PIN for its next levelling. -/
  | qmCtlWrite (w : RegWrite)
  /-- HC_QUIET_WRITE (R218): A write sets the hoop's quiescence window, raised to at least 1,000. -/
  | hcQuietWrite (w : RegWrite)
  /-- PK_TLBINV_WRITE (R478): A write of the low word starts a translation invalidation. -/
  | pkTlbinvWrite (w : RegWrite)
  /-- PK_CTL_RUN (R472): Setting RUN starts link training and enables the schedulers. -/
  | pkCtlRun (w : RegWrite)
  /-- PK_NODE_WRITE (R471): A write sets the node id, ignored once RUN is set. -/
  | pkNodeWrite (w : RegWrite)
  /-- JT_CTL_WRITE (R435): A write configures the join engine, and clearing EN frees every live entry. -/
  | jtCtlWrite (w : RegWrite)
  /-- REGISTER_WRITE (R470): A write to any other system register follows its access type and clamps. -/
  | registerWrite (w : RegWrite)
  /-- DRAM_REFRESH (R466): A DRAM controller refreshes within its retention window. -/
  | dramRefresh (tower die : Nat)
  /-- RESET (R472): A reset cause resets the whole package and bring-up begins. -/
  | resetPackage (cause : BitVec 3)
  /-- FIRMWARE_LOAD (R473): The security controller verifies and loads a bobbin firmware image. -/
  | firmwareLoad (image : FirmwareImage)
  /-- ATTESTATION_REQUEST (R474): The security controller returns a signed attestation report for a nonce. -/
  | attestationRequest (nonce : BitVec 256)
  /-- KEY_INSTALL (R475): An authenticated sideband command installs a memory encryption key. -/
  | keyInstall (index : BitVec 12) (authentic : Bool)
  /-- SYSTEM_AGENT_WRITE (R291): A host or system agent writes package memory by physical address. -/
  | systemAgentWrite (agent : BitVec 14) (pa : Nat) (bytes : List Byte)
  /-- SYSTEM_AGENT_READ (R291): A host or system agent reads package memory by physical address. -/
  | systemAgentRead (agent : BitVec 14) (pa n : Nat)
  /-- CONFIG_SCRUB (R480): The configuration store is scrubbed, correcting errors or reloading from the placed copy. -/
  | configScrub (hoop quad : Nat) (found : ScrubFinding)
  /-- PREEMPTION_WAIT_ELAPSED (R348): With PREN set, the first task in the scheduler's order has waited 4,096 × PWAITU ticks and fits no hoop, so the scheduler chooses victims and pre-empts them. -/
  | preemptionWaitElapsed (tower : Nat)
  /-- LINK_TRAINED (R482): A Virolat port finishes training and its STATE goes from untrained or down to up, so flits and tokens may flow on it. -/
  | linkTrained (port : Nat) (peer : BitVec 14)
  deriving DecidableEq, Repr

end Sys2Proof
end

