-- ==== Sys2Proof/Config.lean ====
section
/-!
DEFINITION. What the manual leaves to an implementation, and the free values: opaque constants that no
proof can see into. Each is named by a row of the assumption log.
-/

namespace Sys2Proof.Config

/-- The bit of an element's presence filter that a spilled token's (CTX, ITER div 32, BLK, INST) sets:
R47 names the function Hash and does not give it. -/
opaque spillHash : BitVec 12 → Nat → BitVec 7 → BitVec 7 → BitVec 8

/-- The 32-bit field of a structure word that has been cleared (R258: "Unspecified"), fresh at each use. -/
opaque clearedField : Nat → Word

/-- The index a structure unit gives a reader entry it takes from its pool (R258, R259), fresh at each
use; the manual does not say which free entry is taken. -/
opaque readerEntryIndex : Nat → Word

/-- The 12-bit code the converter of thermal diode `n` reads at its `k`-th sample (R457). -/
opaque sensorCode : Nat → Nat → BitVec 12

/-- What is fused for thermal diode `n`: its code at 30.0 °C and the rise of its code to 100.0 °C, before the bounds of
R458. -/
opaque fuseC30 : Nat → BitVec 12
opaque fuseRise : Nat → BitVec 12

/-- The fused codes C30 and C100 of thermal diode `n` (R457). Within the bounds of R458, 0x100 ≤ C30, C100 ≤ 0xF00 and a
rise of at least 0x200, they are free. -/
def calC30 (n : Nat) : BitVec 12 := BitVec.ofNat 12 (0x100 + (fuseC30 n).toNat % 0xC01)
def calC100 (n : Nat) : BitVec 12 :=
  BitVec.ofNat 12 ((calC30 n).toNat + 0x200 + (fuseRise n).toNat % (0xD01 - (calC30 n).toNat))

/-- The network header (AGE, SEQ) of the token a fault record names (R37, R483), fresh at each use. -/
opaque networkHeader : Nat → BitVec 32

/-- The SHA-256 digest of the maker's public key held in fuses (R473). -/
opaque fusedKeyDigest : BitVec 256

/-- The SHA-256 digests of the security controller's ROM and of the fuse block (R474). -/
opaque romDigest : BitVec 256
opaque fuseDigest : BitVec 256

/-- The device attestation key held in fuses: its modulus and private exponent, and the salt of the
`k`-th signature (R474). -/
opaque attestModulus : Nat
opaque attestExponent : Nat
opaque attestSalt : Nat → BitVec 256
opaque attestCertificate : List Byte

/-- The encoding of a public key, given by its modulus, that the fused digest is taken over (R473). -/
opaque keyEncoding : Nat → List Byte

/-- What a system agent is given for byte `k` of a line whose code fails (R431), fresh at each use. -/
opaque poisonedByte : Nat → Nat → Byte

/-- What the bobbin measures and is calibrated with (R459 to R461), for domain `d` (0 to 319): the leakage current in µA
at its `k`-th snapshot, the firing interval in ps at `p` × 0.10 V of the calibrated table, the step in mV by which its
`k`-th period restores a target, and its estimate in W of what lowering the target of a domain by 25 mV saves. -/
opaque leakage : Nat → Nat → Nat
opaque firingInterval : Nat → Nat → Nat
opaque restoreStep : Nat → Nat → Nat
opaque powerSaving : Nat → Nat → Nat

/-- The rail monitors at the `k`-th snapshot (R459, R462 to R464): the package power and the fixed-rail power in W, and the
mean pump-rail voltage in mV. -/
opaque packagePower : Nat → BitVec 12
opaque fixedRailPower : Nat → BitVec 12
opaque pumpRailMv : Nat → BitVec 16

/-- How many of its K-groups an MMA in flight has applied to accumulator word `(row, col)` when a PEEK
reads it (R404), before the bound by the number of groups; fresh at each use. -/
opaque peekProgress : Nat → Nat → Nat → Nat

/-- The order in which a collective groups its members' contributions (R424, R80): a key by which the
members of one combination are taken, fresh at each use. -/
opaque collectiveOrder : Nat → Nat → Nat

/-- The value of the fill voltage seen by a store in mV for a domain whose store is draining (R358):
the physical store voltage in store mode, fresh at each use. -/
opaque storeMillivolts : Nat → Nat → BitVec 10

/-- The task slot that a fault record shows for a word that a remote sender or a collective owns (R290), fresh
at each use. -/
opaque remoteSlot : Nat → BitVec 8

/-- The meter state that QM_STAT shows while a task runs in schedule mode: R360 gives the states of store mode
only. Fresh at each use. -/
opaque scheduleState : Nat → BitVec 3

/-- Detail word `k` of a fault record whose words no rule gives, such as those of a register read that R332
refuses; fresh at each use. -/
opaque unstatedDetail : Nat → Nat → Word

/-- What METER emits for a domain that the task does not hold (R374 names no value), fresh at each use. -/
opaque unstatedMeter : Nat → Word

/-- Byte `k` of what the hoop writes to a spill slot or to a save area, whose layouts the manual does not give
(R47, R345), fresh at each use. -/
opaque savedByte : Nat → Nat → Byte

/-- Whether a save writes the `k`-th 256 bytes of the save area, whose layout the manual does not give (R345), fresh at
each use. The first 256 bytes are always written. -/
opaque savesChunk : Nat → Nat → Bool

end Sys2Proof.Config
end

