-- ==== Sys2Proof/Machine/Forms.lean ====
section
/-!
DEFINITION. The operand forms of the instructions: the fields of each instruction word gathered in one
record, and for each opcode the ports it takes, the formats and control kinds each port accepts, its
literal rules, its placement class and its cost class (R86 to R92, R134, R141, R151, R159, R180, R236,
R249, R254, R328, R368, R391, R410, R440).
-/

namespace Sys2Proof

/-- The word forms of R86 to R91, and `event` for a row of the table that has no encoding. -/
inductive WordForm where
  | std | s | rw | exit | x | event
  deriving DecidableEq, Repr

/-- The placement classes of R94: E, S, M and X, and `none` for an event. -/
inductive PlaceClass where
  | element | selvage | matrix | engine | none
  deriving DecidableEq, Repr

/-- The cost classes of R362. -/
inductive CostClass where
  | t | i | f | a | p | m | s
  deriving DecidableEq, Repr

/-- What a port accepts (R31): a bit for each format FMT 0 to 6 (bit 6 is HDR) and a bit for each
control kind 1 to 6. A NULL token passes on any port whatever these say. -/
structure Accept where
  fmts : BitVec 7
  kinds : BitVec 7
  deriving DecidableEq, Repr

namespace Accept
def i32 : Accept := ⟨0x01#7, 0#7⟩
def f32 : Accept := ⟨0x02#7, 0#7⟩
def i8q : Accept := ⟨0x20#7, 0#7⟩
/-- B16P and H16P. -/
def packed : Accept := ⟨0x0C#7, 0#7⟩
/-- I32 and F32: COMB's port A (R180), port B of ASWAP, ports B and C of ACAS (R97). -/
def combine : Accept := ⟨0x03#7, 0#7⟩
/-- "Data" of R159, R180 and R254. -/
def data : Accept := ⟨0x3F#7, 0#7⟩
/-- "Any" of R180 and "any trigger" of R328. -/
def any : Accept := ⟨0x7F#7, 0x7F#7⟩
def header : Accept := ⟨0x40#7, 0#7⟩
/-- Data, EOS and BARRIER: port A of JOIN and REORD. -/
def gather : Accept := ⟨0x3F#7, 0x0C#7⟩
/-- F32, EOS and BARRIER: port A of QSEND. -/
def qsend : Accept := ⟨0x02#7, 0x0C#7⟩
/-- A LOCK control token: port A of UNLOCK (R254). -/
def lock : Accept := ⟨0#7, 0x10#7⟩
/-- I32 coordinates and EOS: port C of OPLOAD SPARSE (R391). -/
def coord : Accept := ⟨0x01#7, 0x04#7⟩
/-- Port A of EOS (R285): a source takes Data, a sink an EOS token. -/
def eosPort (lit : Word) : Accept := if lit.getLsbD 0 then ⟨0#7, 0x04#7⟩ else data
/-- Port A of BARR (R285): a source takes Data, a sink a BARRIER token. -/
def barrPort (lit : Word) : Accept := if lit.getLsbD 8 then ⟨0#7, 0x08#7⟩ else data
/-- The one format named by a 3-bit FMT code, with HDR beside the scaled formats C4O and I8Q (R159, R434). -/
def scaled (fmt : BitVec 3) : Accept :=
  let one : BitVec 7 := 1#7 <<< fmt.toNat
  ⟨if fmt = 4#3 ∨ fmt = 5#3 then one ||| 0x40#7 else one, 0#7⟩
/-- Port A of CVT: the literal's SFMT (R170). -/
def cvtPort (lit : Word) : Accept := scaled (lit.extractLsb' 4 3)
/-- Port B of STV: the format that mod names (R236, R434). -/
def stvPort (fmt : BitVec 3) : Accept := scaled fmt
end Accept

/-- Whether a port may be served by the literal word: never, freely, only with `pr` set (R236), or
always (R92 and the "literal" ports of R159, R180 and R254). -/
inductive LitUse where
  | no | may | mayPr | must
  deriving DecidableEq, Repr

/-- A port of an opcode. -/
inductive PortSpec where
  | absent
  | tok (acc : Accept) (lit : LitUse)
  deriving DecidableEq, Repr

/-- What the manual fixes of an opcode beside its meaning. `needToken` marks the instructions of R134
that are refused when every operand port is served by a literal and `pr` is clear; `counted` is the last
column of R96. -/
structure OpSpec where
  place : PlaceClass
  a : PortSpec
  b : PortSpec
  c : PortSpec
  cost : CostClass
  passes : Nat
  prOk : Bool
  tactOk : Bool
  t0Ok : Bool
  t1Ok : Bool
  needToken : Bool
  counted : Bool
  deriving DecidableEq, Repr

/-- The record of an event, which has no ports. -/
def OpSpec.event : OpSpec :=
  ⟨.none, .absent, .absent, .absent, .t, 0, false, false, false, false, false, false⟩

/-- The fields of an instruction word and its literal, in one record for every form. -/
structure Fields where
  word : WordForm
  tact : Tact
  la : Bool
  lb : Bool
  pr : Bool
  t0 : BitVec 9
  t1 : BitVec 9
  seg : BitVec 4
  lsid : BitVec 5
  fw : BitVec 5
  exit : BitVec 3
  lit : Word
  deriving DecidableEq, Repr

def StdForm.fields (f : StdForm) : Fields := ⟨.std, f.tact, f.la, f.lb, f.pr, f.t0, f.t1, 0, 0, 0, 0, f.lit⟩
def SForm.fields (f : SForm) : Fields := ⟨.s, .keep, f.la, f.lb, f.pr, f.t0, noTarget, f.seg, f.lsid, 0, 0, f.lit⟩
def RwForm.fields (f : RwForm) : Fields := ⟨.rw, .keep, false, false, false, f.t0, f.t1, 0, 0, f.fw, 0, 0⟩
def XForm.fields (f : XForm) : Fields := ⟨.x, .keep, f.la, false, false, f.t0, f.t1, 0, 0, 0, 0, f.lit⟩
def exitFields (e : BitVec 3) : Fields := ⟨.exit, .keep, false, false, false, noTarget, noTarget, 0, 0, 0, e, 0⟩
def eventFields : Fields := ⟨.event, .keep, false, false, false, noTarget, noTarget, 0, 0, 0, 0, 0⟩

/-- The fields of each instruction's word (R86 to R91). -/
def Instr.fields : Instr → Fields
  | .add f => f.fields
  | .sub f => f.fields
  | .adds f => f.fields
  | .subs f => f.fields
  | .addus f => f.fields
  | .subus f => f.fields
  | .mul f => f.fields
  | .mulh f => f.fields
  | .mulhu f => f.fields
  | .div f => f.fields
  | .divu f => f.fields
  | .rem f => f.fields
  | .remu f => f.fields
  | .and f => f.fields
  | .or f => f.fields
  | .xor f => f.fields
  | .andn f => f.fields
  | .shl f => f.fields
  | .shr f => f.fields
  | .sar f => f.fields
  | .rol f => f.fields
  | .clz f => f.fields
  | .ctz f => f.fields
  | .popc f => f.fields
  | .brev f => f.fields
  | .min f => f.fields
  | .max f => f.fields
  | .minu f => f.fields
  | .maxu f => f.fields
  | .abs f => f.fields
  | .neg f => f.fields
  | .sel f => f.fields
  | .extb f => f.fields
  | .exth f => f.fields
  | .bfx f => f.fields
  | .bfi f => f.fields
  | .teq f => f.fields
  | .tne f => f.fields
  | .tlt f => f.fields
  | .tle f => f.fields
  | .tltu f => f.fields
  | .tleu f => f.fields
  | .muladd f => f.fields
  | .fadd f => f.fields
  | .fsub f => f.fields
  | .fmul f => f.fields
  | .ffma f => f.fields
  | .ffms f => f.fields
  | .fmin f => f.fields
  | .fmax f => f.fields
  | .fabs f => f.fields
  | .fneg f => f.fields
  | .feq f => f.fields
  | .flt f => f.fields
  | .fle f => f.fields
  | .funo f => f.fields
  | .fclass f => f.fields
  | .frnd f => f.fields
  | .fdiv f => f.fields
  | .fsqrt f => f.fields
  | .frcp f => f.fields
  | .frsq f => f.fields
  | .fexp2 f => f.fields
  | .flog2 f => f.fields
  | .mov f => f.fields
  | .nullTok f => f.fields
  | .steer f => f.fields
  | .merge f => f.fields
  | .exit e => exitFields e
  | .read f => f.fields
  | .write f => f.fields
  | .loopi f => f.fields
  | .brk f => f.fields
  | .call f => f.fields
  | .ret f => f.fields
  | .iterv f => f.fields
  | .ctxv f => f.fields
  | .workid f => f.fields
  | .pmark f => f.fields
  | .comb f => f.fields
  | .eos f => f.fields
  | .barr f => f.fields
  | .bwait f => f.fields
  | .fence f => f.fields
  | .split f => f.fields
  | .join f => f.fields
  | .hdrt f => f.fields
  | .ld f _ _ => f.fields
  | .st f _ => f.fields
  | .ldv f _ => f.fields
  | .stv f _ => f.fields
  | .sopenRead f _ => f.fields
  | .sopenWrite f _ => f.fields
  | .sindRead f _ => f.fields
  | .sindWrite f _ => f.fields
  | .sclose f => f.fields
  | .sbar f => f.fields
  | .iread f => f.fields
  | .iwrite f => f.fields
  | .iclear f => f.fields
  | .aadd f => f.fields
  | .afadd f => f.fields
  | .amin f => f.fields
  | .amax f => f.fields
  | .aminu f => f.fields
  | .amaxu f => f.fields
  | .aand f => f.fields
  | .aor f => f.fields
  | .axor f => f.fields
  | .aswap f => f.fields
  | .acas f => f.fields
  | .afmin f => f.fields
  | .afmax f => f.fields
  | .atomsc f _ => f.fields
  | .lock f => f.fields
  | .unlock f => f.fields
  | .qput f => f.fields
  | .qget f => f.fields
  | .cvt f => f.fields
  | .padd2 f => f.fields
  | .pmul2 f => f.fields
  | .pfma2 f => f.fields
  | .dot2 f => f.fields
  | .dot4 f => f.fields
  | .reord f => f.fields
  | .qsend f => f.fields
  | .oslotClaim f => f.fields
  | .oslotRelease f => f.fields
  | .oploadDense f => f.fields
  | .oploadSparse f => f.fields
  | .oploadCodebook f => f.fields
  | .mma f => f.fields
  | .accZero f => f.fields
  | .accRead f => f.fields
  | .accPeek f => f.fields
  | .accWrite f => f.fields
  | .accStore f => f.fields
  | .topup f => f.fields
  | .tack f => f.fields
  | .leave f => f.fields
  | .meter f => f.fields
  | .grant f => f.fields
  | .resumev f => f.fields
  | .launch f => f.fields
  | .nextw f => f.fields
  | .trap f => f.fields
  | .srd f => f.fields
  | .swr f => f.fields
  | .time f => f.fields
  | .freeze f => f.fields
  | .thaw f => f.fields
  | .preempt f => f.fields
  | .copy f => f.fields
  | .gather f => f.fields
  | .scatter f => f.fields
  | .allreduce f => f.fields
  | .allgather f => f.fields
  | .reducescatter f => f.fields
  | .broadcast f => f.fields
  | .remwr f => f.fields
  | .rematom f => f.fields
  | .lwopen f => f.fields
  | .lwclose f => f.fields
  | .epopen f => f.fields
  | .epstep f => f.fields
  | .epend f => f.fields
  | .rwsend f => f.fields
  | .jcfg f => f.fields
  | .lvset f => f.fields
  | .jstat f => f.fields
  | .tokenArrival _ => eventFields
  | .spillSearch _ => eventFields
  | .heldTokenAccept _ => eventFields
  | .headerLatchFreed _ => eventFields
  | .tokenRoute _ => eventFields
  | .contextGrant _ => eventFields
  | .sweepStart _ => eventFields
  | .sweepEnd _ => eventFields
  | .instanceCommit _ _ => eventFields
  | .heldExitDelivery _ _ => eventFields
  | .quiescenceTimeout _ => eventFields
  | .entryInjection _ => eventFields
  | .loopiIssue _ _ => eventFields
  | .heldFaultRecheck _ _ _ => eventFields
  | .loadOrderRelease _ _ _ => eventFields
  | .translationWalk _ _ _ => eventFields
  | .readComplete _ _ _ => eventFields
  | .streamEngineAcquire _ _ _ => eventFields
  | .circuitSetup _ _ _ => eventFields
  | .streamElementAccess _ _ => eventFields
  | .streamDataArrival _ => eventFields
  | .scoreboardWaitEnd _ _ _ => eventFields
  | .atOnceRelease _ _ _ => eventFields
  | .bankOperation _ _ _ => eventFields
  | .bankReply _ _ _ _ => eventFields
  | .atomscTokenVisit _ => eventFields
  | .structRequest _ _ _ => eventFields
  | .structPoolWaitEnd _ _ _ => eventFields
  | .readerCancel _ _ => eventFields
  | .lockRelease _ _ _ => eventFields
  | .lockTileWaitEnd _ _ _ => eventFields
  | .queuePutServe _ _ _ => eventFields
  | .queueGetServe _ _ _ => eventFields
  | .queueWaitExpire _ _ _ => eventFields
  | .enginePortDepart _ _ _ => eventFields
  | .engineCommandStart _ _ => eventFields
  | .engineCommandComplete _ _ _ => eventFields
  | .rowLanding _ => eventFields
  | .landingAck _ _ _ _ => eventFields
  | .failureAck _ _ _ _ _ => eventFields
  | .commitTokenReceive _ => eventFields
  | .abortTokenReceive _ => eventFields
  | .remoteAtomicReceive _ => eventFields
  | .remoteAtomicReply _ _ _ _ _ => eventFields
  | .collContribution _ => eventFields
  | .hostToken _ _ _ => eventFields
  | .hostQueueWaitEnd _ _ => eventFields
  | .flitReceive _ _ => eventFields
  | .flitRetry _ => eventFields
  | .linkDown _ => eventFields
  | .linkRetrain _ => eventFields
  | .launchDecrement _ => eventFields
  | .readyNoticeWaitEnd _ => eventFields
  | .readinessCheck _ => eventFields
  | .schedulerScan _ => eventFields
  | .agingStep _ _ => eventFields
  | .blockFetch _ => eventFields
  | .launchResources _ => eventFields
  | .meterLevel _ => eventFields
  | .fillComplete _ _ => eventFields
  | .placementCheck _ => eventFields
  | .taskCommit _ => eventFields
  | .commitDrain _ => eventFields
  | .commitTokenSend _ => eventFields
  | .commitRelease _ => eventFields
  | .taskAbort _ => eventFields
  | .park _ => eventFields
  | .faultQueueAppend _ _ => eventFields
  | .preemptFreeze _ _ => eventFields
  | .preemptSave _ => eventFields
  | .restoreTask _ => eventFields
  | .pumpFeed _ _ _ => eventFields
  | .floorStop _ _ => eventFields
  | .topupPoolServe _ _ _ => eventFields
  | .topupApply _ _ _ _ => eventFields
  | .targetMoveComplete _ _ => eventFields
  | .leaveCeilingRaise _ _ => eventFields
  | .leaveCeilingFall _ _ => eventFields
  | .leaveViolation _ _ _ _ => eventFields
  | .mmaComplete _ _ _ => eventFields
  | .oploadComplete _ _ _ => eventFields
  | .sparseCoordinate _ => eventFields
  | .rewardArrival _ => eventFields
  | .episodeDeadline _ _ => eventFields
  | .episodeScan _ _ => eventFields
  | .episodeRelease _ _ => eventFields
  | .pkPoolWrite _ => eventFields
  | .qmTargetWrite _ => eventFields
  | .qmCtlWrite _ => eventFields
  | .hcQuietWrite _ => eventFields
  | .pkTlbinvWrite _ => eventFields
  | .tlbInvalidateDone => eventFields
  | .pkCtlRun _ => eventFields
  | .pkNodeWrite _ => eventFields
  | .jtCtlWrite _ => eventFields
  | .registerWrite _ => eventFields
  | .sensorSample => eventFields
  | .controlPeriod => eventFields
  | .watchdogFire => eventFields
  | .feedWindow => eventFields
  | .feedcapReached => eventFields
  | .pumpRailLow => eventFields
  | .pumpRailRestore => eventFields
  | .dramRefresh _ _ => eventFields
  | .packageTick => eventFields
  | .resetPackage _ => eventFields
  | .dramTrain => eventFields
  | .firmwareLoad _ => eventFields
  | .attestationRequest _ => eventFields
  | .keyInstall _ _ => eventFields
  | .systemAgentWrite _ _ _ => eventFields
  | .systemAgentRead _ _ _ => eventFields
  | .configScrub _ _ _ => eventFields
  | .preemptionWaitElapsed _ => eventFields
  | .linkTrained _ _ => eventFields

/-- The ports, class and counting of a bank operation by its operation code (R97, R254). -/
def bankSpec : BankOp → OpSpec
  | .aadd | .amin | .amax | .aminu | .amaxu | .aand | .aor | .axor =>
    ⟨.selvage, .tok .i32 .may, .tok .i32 .may, .absent, .i, 1, true, true, true, false, false, true⟩
  | .afadd | .afmin | .afmax =>
    ⟨.selvage, .tok .i32 .may, .tok .f32 .may, .absent, .f, 1, true, true, true, false, false, true⟩
  | .aswap => ⟨.selvage, .tok .i32 .may, .tok .combine .may, .absent, .i, 1, true, true, true, false, false, true⟩
  | .acas => ⟨.selvage, .tok .i32 .may, .tok .combine .may, .tok .combine .no, .i, 1, true, true, true, false, false, true⟩

/-- The record of each opcode. -/
def Instr.spec : Instr → OpSpec
  | .add _ => ⟨.element, (.tok .i32 .may), (.tok .i32 .may), .absent, .i, 1, true, true, true, true, true, false⟩
  | .sub _ => ⟨.element, (.tok .i32 .may), (.tok .i32 .may), .absent, .i, 1, true, true, true, true, true, false⟩
  | .adds _ => ⟨.element, (.tok .i32 .may), (.tok .i32 .may), .absent, .i, 1, true, true, true, true, true, false⟩
  | .subs _ => ⟨.element, (.tok .i32 .may), (.tok .i32 .may), .absent, .i, 1, true, true, true, true, true, false⟩
  | .addus _ => ⟨.element, (.tok .i32 .may), (.tok .i32 .may), .absent, .i, 1, true, true, true, true, true, false⟩
  | .subus _ => ⟨.element, (.tok .i32 .may), (.tok .i32 .may), .absent, .i, 1, true, true, true, true, true, false⟩
  | .mul _ => ⟨.element, (.tok .i32 .may), (.tok .i32 .may), .absent, .m, 1, true, true, true, true, true, false⟩
  | .mulh _ => ⟨.element, (.tok .i32 .may), (.tok .i32 .may), .absent, .m, 1, true, true, true, true, true, false⟩
  | .mulhu _ => ⟨.element, (.tok .i32 .may), (.tok .i32 .may), .absent, .m, 1, true, true, true, true, true, false⟩
  | .div _ => ⟨.element, (.tok .i32 .may), (.tok .i32 .may), .absent, .m, 4, true, true, true, true, true, false⟩
  | .divu _ => ⟨.element, (.tok .i32 .may), (.tok .i32 .may), .absent, .m, 4, true, true, true, true, true, false⟩
  | .rem _ => ⟨.element, (.tok .i32 .may), (.tok .i32 .may), .absent, .m, 4, true, true, true, true, true, false⟩
  | .remu _ => ⟨.element, (.tok .i32 .may), (.tok .i32 .may), .absent, .m, 4, true, true, true, true, true, false⟩
  | .and _ => ⟨.element, (.tok .i32 .may), (.tok .i32 .may), .absent, .i, 1, true, true, true, true, true, false⟩
  | .or _ => ⟨.element, (.tok .i32 .may), (.tok .i32 .may), .absent, .i, 1, true, true, true, true, true, false⟩
  | .xor _ => ⟨.element, (.tok .i32 .may), (.tok .i32 .may), .absent, .i, 1, true, true, true, true, true, false⟩
  | .andn _ => ⟨.element, (.tok .i32 .may), (.tok .i32 .may), .absent, .i, 1, true, true, true, true, true, false⟩
  | .shl _ => ⟨.element, (.tok .i32 .may), (.tok .i32 .may), .absent, .i, 1, true, true, true, true, true, false⟩
  | .shr _ => ⟨.element, (.tok .i32 .may), (.tok .i32 .may), .absent, .i, 1, true, true, true, true, true, false⟩
  | .sar _ => ⟨.element, (.tok .i32 .may), (.tok .i32 .may), .absent, .i, 1, true, true, true, true, true, false⟩
  | .rol _ => ⟨.element, (.tok .i32 .may), (.tok .i32 .may), .absent, .i, 1, true, true, true, true, true, false⟩
  | .clz _ => ⟨.element, (.tok .i32 .may), .absent, .absent, .i, 1, true, true, true, true, true, false⟩
  | .ctz _ => ⟨.element, (.tok .i32 .may), .absent, .absent, .i, 1, true, true, true, true, true, false⟩
  | .popc _ => ⟨.element, (.tok .i32 .may), .absent, .absent, .i, 1, true, true, true, true, true, false⟩
  | .brev _ => ⟨.element, (.tok .i32 .may), .absent, .absent, .i, 1, true, true, true, true, true, false⟩
  | .min _ => ⟨.element, (.tok .i32 .may), (.tok .i32 .may), .absent, .i, 1, true, true, true, true, true, false⟩
  | .max _ => ⟨.element, (.tok .i32 .may), (.tok .i32 .may), .absent, .i, 1, true, true, true, true, true, false⟩
  | .minu _ => ⟨.element, (.tok .i32 .may), (.tok .i32 .may), .absent, .i, 1, true, true, true, true, true, false⟩
  | .maxu _ => ⟨.element, (.tok .i32 .may), (.tok .i32 .may), .absent, .i, 1, true, true, true, true, true, false⟩
  | .abs _ => ⟨.element, (.tok .i32 .may), .absent, .absent, .i, 1, true, true, true, true, true, false⟩
  | .neg _ => ⟨.element, (.tok .i32 .may), .absent, .absent, .i, 1, true, true, true, true, true, false⟩
  | .sel _ => ⟨.element, (.tok .data .may), (.tok .data .may), (.tok .i32 .no), .i, 1, true, true, true, true, true, false⟩
  | .extb _ => ⟨.element, (.tok .i32 .may), (.tok .i32 .may), .absent, .i, 1, true, true, true, true, true, false⟩
  | .exth _ => ⟨.element, (.tok .i32 .may), (.tok .i32 .may), .absent, .i, 1, true, true, true, true, true, false⟩
  | .bfx _ => ⟨.element, (.tok .i32 .may), (.tok .i32 .may), .absent, .i, 1, true, true, true, true, true, false⟩
  | .bfi _ => ⟨.element, (.tok .i32 .may), (.tok .i32 .may), (.tok .i32 .no), .i, 1, true, true, true, true, true, false⟩
  | .teq _ => ⟨.element, (.tok .i32 .may), (.tok .i32 .may), .absent, .i, 1, true, true, true, true, true, false⟩
  | .tne _ => ⟨.element, (.tok .i32 .may), (.tok .i32 .may), .absent, .i, 1, true, true, true, true, true, false⟩
  | .tlt _ => ⟨.element, (.tok .i32 .may), (.tok .i32 .may), .absent, .i, 1, true, true, true, true, true, false⟩
  | .tle _ => ⟨.element, (.tok .i32 .may), (.tok .i32 .may), .absent, .i, 1, true, true, true, true, true, false⟩
  | .tltu _ => ⟨.element, (.tok .i32 .may), (.tok .i32 .may), .absent, .i, 1, true, true, true, true, true, false⟩
  | .tleu _ => ⟨.element, (.tok .i32 .may), (.tok .i32 .may), .absent, .i, 1, true, true, true, true, true, false⟩
  | .muladd _ => ⟨.element, (.tok .i32 .may), (.tok .i32 .may), (.tok .i32 .no), .a, 1, true, true, true, true, true, false⟩
  | .fadd _ => ⟨.element, (.tok .f32 .may), (.tok .f32 .may), .absent, .f, 1, true, true, true, true, true, false⟩
  | .fsub _ => ⟨.element, (.tok .f32 .may), (.tok .f32 .may), .absent, .f, 1, true, true, true, true, true, false⟩
  | .fmul _ => ⟨.element, (.tok .f32 .may), (.tok .f32 .may), .absent, .f, 1, true, true, true, true, true, false⟩
  | .ffma _ => ⟨.element, (.tok .f32 .may), (.tok .f32 .may), (.tok .f32 .no), .a, 1, true, true, true, true, true, false⟩
  | .ffms _ => ⟨.element, (.tok .f32 .may), (.tok .f32 .may), (.tok .f32 .no), .a, 1, true, true, true, true, true, false⟩
  | .fmin _ => ⟨.element, (.tok .f32 .may), (.tok .f32 .may), .absent, .f, 1, true, true, true, true, true, false⟩
  | .fmax _ => ⟨.element, (.tok .f32 .may), (.tok .f32 .may), .absent, .f, 1, true, true, true, true, true, false⟩
  | .fabs _ => ⟨.element, (.tok .f32 .may), .absent, .absent, .i, 1, true, true, true, true, true, false⟩
  | .fneg _ => ⟨.element, (.tok .f32 .may), .absent, .absent, .i, 1, true, true, true, true, true, false⟩
  | .feq _ => ⟨.element, (.tok .f32 .may), (.tok .f32 .may), .absent, .f, 1, true, true, true, true, true, false⟩
  | .flt _ => ⟨.element, (.tok .f32 .may), (.tok .f32 .may), .absent, .f, 1, true, true, true, true, true, false⟩
  | .fle _ => ⟨.element, (.tok .f32 .may), (.tok .f32 .may), .absent, .f, 1, true, true, true, true, true, false⟩
  | .funo _ => ⟨.element, (.tok .f32 .may), (.tok .f32 .may), .absent, .f, 1, true, true, true, true, true, false⟩
  | .fclass _ => ⟨.element, (.tok .f32 .may), .absent, .absent, .i, 1, true, true, true, true, true, false⟩
  | .frnd _ => ⟨.element, (.tok .f32 .may), (.tok .i32 .may), .absent, .f, 1, true, true, true, true, true, false⟩
  | .fdiv _ => ⟨.element, (.tok .f32 .may), (.tok .f32 .may), .absent, .s, 4, true, true, true, true, true, false⟩
  | .fsqrt _ => ⟨.element, (.tok .f32 .may), .absent, .absent, .s, 4, true, true, true, true, true, false⟩
  | .frcp _ => ⟨.element, (.tok .f32 .may), .absent, .absent, .s, 4, true, true, true, true, true, false⟩
  | .frsq _ => ⟨.element, (.tok .f32 .may), .absent, .absent, .s, 4, true, true, true, true, true, false⟩
  | .fexp2 _ => ⟨.element, (.tok .f32 .may), .absent, .absent, .s, 4, true, true, true, true, true, false⟩
  | .flog2 _ => ⟨.element, (.tok .f32 .may), .absent, .absent, .s, 4, true, true, true, true, true, false⟩
  | .mov _ => ⟨.element, (.tok .any .may), .absent, .absent, .t, 1, true, true, true, true, true, false⟩
  | .nullTok _ => ⟨.element, (.tok .any .may), .absent, .absent, .t, 1, true, true, true, true, true, false⟩
  | .steer _ => ⟨.element, (.tok .any .no), (.tok .i32 .must), (.tok .i32 .no), .t, 1, false, true, true, true, false, false⟩
  | .merge _ => ⟨.element, (.tok .any .no), (.tok .any .no), .absent, .t, 1, false, true, true, true, false, false⟩
  | .exit _ => ⟨.element, (.tok .data .no), .absent, .absent, .t, 1, false, true, false, false, false, false⟩
  | .read _ => ⟨.element, (.tok .any .no), .absent, .absent, .t, 1, false, true, true, true, false, false⟩
  | .write _ => ⟨.element, (.tok .data .no), .absent, .absent, .t, 1, false, true, true, true, false, false⟩
  | .loopi _ => ⟨.element, (.tok .i32 .may), (.tok .i32 .may), .absent, .t, 1, false, false, true, true, false, false⟩
  | .brk _ => ⟨.element, (.tok .i32 .may), .absent, .absent, .t, 1, true, true, true, true, true, false⟩
  | .call _ => ⟨.element, (.tok .data .no), (.tok .i32 .must), .absent, .t, 1, true, false, true, true, false, false⟩
  | .ret _ => ⟨.element, (.tok .data .may), .absent, .absent, .t, 1, true, true, true, true, false, false⟩
  | .iterv _ => ⟨.element, (.tok .any .may), .absent, .absent, .t, 1, true, true, true, true, true, false⟩
  | .ctxv _ => ⟨.element, (.tok .any .may), .absent, .absent, .t, 1, true, true, true, true, true, false⟩
  | .workid _ => ⟨.element, (.tok .any .no), (.tok .i32 .must), .absent, .t, 1, true, true, true, true, false, false⟩
  | .pmark _ => ⟨.element, (.tok .any .may), .absent, .absent, .t, 1, true, true, true, true, true, false⟩
  | .comb _ => ⟨.element, (.tok .combine .no), (.tok .i32 .must), .absent, .t, 1, false, true, true, true, false, false⟩
  | .eos f => ⟨.element, (.tok (.eosPort f.lit) .no), (.tok .i32 .must), .absent, .t, 1, true, true, true, true, false, false⟩
  | .barr f => ⟨.element, (.tok (.barrPort f.lit) .no), (.tok .i32 .must), .absent, .t, 1, true, true, true, true, false, false⟩
  | .bwait _ => ⟨.element, (.tok .i32 .no), (.tok .i32 .must), .absent, .t, 1, true, true, true, true, false, false⟩
  | .fence _ => ⟨.element, (.tok .data .no), (.tok .i32 .must), .absent, .t, 1, true, true, true, true, false, false⟩
  | .split _ => ⟨.element, (.tok .data .no), (.tok .i32 .must), .absent, .t, 1, true, true, true, true, false, false⟩
  | .join _ => ⟨.element, (.tok .gather .no), (.tok .i32 .must), .absent, .t, 1, false, true, true, true, false, false⟩
  | .hdrt _ => ⟨.element, (.tok .header .may), (.tok .i32 .may), .absent, .i, 1, true, true, true, true, true, false⟩
  | .ld _ _ _ => ⟨.selvage, (.tok .i32 .mayPr), .absent, .absent, .i, 1, true, true, true, false, false, false⟩
  | .st _ _ => ⟨.selvage, (.tok .i32 .mayPr), (.tok .i32 .may), .absent, .i, 1, true, true, true, false, false, true⟩
  | .ldv _ _ => ⟨.selvage, (.tok .i32 .mayPr), .absent, .absent, .i, 1, true, true, true, false, false, false⟩
  | .stv _ fmt => ⟨.selvage, (.tok .i32 .mayPr), (.tok (.stvPort fmt) .may), .absent, .i, 1, true, true, true, false, false, true⟩
  | .sopenRead _ _ => ⟨.selvage, (.tok .i32 .may), (.tok .i32 .may), .absent, .i, 1, false, true, true, false, false, false⟩
  | .sopenWrite _ _ => ⟨.selvage, (.tok .i32 .may), (.tok .i32 .may), (.tok .data .no), .i, 1, false, true, true, false, false, true⟩
  | .sindRead _ _ => ⟨.selvage, (.tok .i32 .may), (.tok .i32 .may), .absent, .i, 1, false, true, true, false, false, false⟩
  | .sindWrite _ _ => ⟨.selvage, (.tok .i32 .may), (.tok .i32 .may), (.tok .data .no), .i, 1, false, true, true, false, false, true⟩
  | .sclose _ => ⟨.selvage, (.tok .any .no), (.tok .i32 .must), .absent, .t, 1, true, true, true, false, false, false⟩
  | .sbar _ => ⟨.selvage, (.tok .i32 .may), (.tok .i32 .may), .absent, .t, 1, true, true, true, false, false, false⟩
  | .iread _ => ⟨.selvage, (.tok .i32 .may), .absent, .absent, .i, 1, true, true, true, false, false, false⟩
  | .iwrite _ => ⟨.selvage, (.tok .i32 .may), (.tok .data .may), .absent, .i, 1, true, true, true, false, false, true⟩
  | .iclear _ => ⟨.selvage, (.tok .i32 .may), .absent, .absent, .i, 1, true, true, true, false, false, true⟩
  | .aadd _ => ⟨.selvage, (.tok .i32 .may), (.tok .i32 .may), .absent, .i, 1, true, true, true, false, false, true⟩
  | .afadd _ => ⟨.selvage, (.tok .i32 .may), (.tok .f32 .may), .absent, .f, 1, true, true, true, false, false, true⟩
  | .amin _ => ⟨.selvage, (.tok .i32 .may), (.tok .i32 .may), .absent, .i, 1, true, true, true, false, false, true⟩
  | .amax _ => ⟨.selvage, (.tok .i32 .may), (.tok .i32 .may), .absent, .i, 1, true, true, true, false, false, true⟩
  | .aminu _ => ⟨.selvage, (.tok .i32 .may), (.tok .i32 .may), .absent, .i, 1, true, true, true, false, false, true⟩
  | .amaxu _ => ⟨.selvage, (.tok .i32 .may), (.tok .i32 .may), .absent, .i, 1, true, true, true, false, false, true⟩
  | .aand _ => ⟨.selvage, (.tok .i32 .may), (.tok .i32 .may), .absent, .i, 1, true, true, true, false, false, true⟩
  | .aor _ => ⟨.selvage, (.tok .i32 .may), (.tok .i32 .may), .absent, .i, 1, true, true, true, false, false, true⟩
  | .axor _ => ⟨.selvage, (.tok .i32 .may), (.tok .i32 .may), .absent, .i, 1, true, true, true, false, false, true⟩
  | .aswap _ => ⟨.selvage, (.tok .i32 .may), (.tok .combine .may), .absent, .i, 1, true, true, true, false, false, true⟩
  | .acas _ => ⟨.selvage, (.tok .i32 .may), (.tok .combine .may), (.tok .combine .no), .i, 1, true, true, true, false, false, true⟩
  | .afmin _ => ⟨.selvage, (.tok .i32 .may), (.tok .f32 .may), .absent, .f, 1, true, true, true, false, false, true⟩
  | .afmax _ => ⟨.selvage, (.tok .i32 .may), (.tok .f32 .may), .absent, .f, 1, true, true, true, false, false, true⟩
  | .atomsc _ op => bankSpec op
  | .lock _ => ⟨.selvage, (.tok .i32 .may), .absent, .absent, .i, 1, true, true, true, false, false, false⟩
  | .unlock _ => ⟨.selvage, (.tok .lock .may), (.tok .data .may), .absent, .t, 1, true, true, true, false, false, false⟩
  | .qput _ => ⟨.selvage, (.tok .i32 .no), (.tok .i32 .must), (.tok .data .no), .i, 1, false, true, true, false, false, true⟩
  | .qget _ => ⟨.selvage, (.tok .i32 .no), (.tok .i32 .must), .absent, .i, 1, true, true, true, false, false, false⟩
  | .cvt f => ⟨.element, (.tok (.cvtPort f.lit) .no), (.tok .i32 .must), .absent, .f, 1, true, true, true, true, true, false⟩
  | .padd2 _ => ⟨.element, (.tok .packed .may), (.tok .packed .may), .absent, .p, 1, true, true, true, true, true, false⟩
  | .pmul2 _ => ⟨.element, (.tok .packed .may), (.tok .packed .may), .absent, .p, 1, true, true, true, true, true, false⟩
  | .pfma2 _ => ⟨.element, (.tok .packed .may), (.tok .packed .may), (.tok .packed .no), .p, 1, true, true, true, true, true, false⟩
  | .dot2 _ => ⟨.element, (.tok .f32 .may), (.tok .packed .may), (.tok .packed .no), .p, 1, true, true, true, true, true, false⟩
  | .dot4 _ => ⟨.element, (.tok .i32 .may), (.tok .i8q .may), (.tok .i8q .no), .p, 1, true, true, true, true, true, false⟩
  | .reord _ => ⟨.element, (.tok .gather .no), (.tok .i32 .must), .absent, .t, 1, false, true, true, true, false, false⟩
  | .qsend _ => ⟨.element, (.tok .qsend .no), (.tok .i32 .must), .absent, .p, 1, false, true, true, true, false, false⟩
  | .oslotClaim _ => ⟨.matrix, (.tok .i32 .must), (.tok .any .no), .absent, .t, 1, true, true, true, true, false, false⟩
  | .oslotRelease _ => ⟨.matrix, (.tok .i32 .must), (.tok .i32 .no), .absent, .t, 1, true, true, true, true, false, false⟩
  | .oploadDense _ => ⟨.matrix, (.tok .i32 .must), (.tok .i32 .no), (.tok .i32 .no), .i, 1, true, true, true, true, false, false⟩
  | .oploadSparse _ => ⟨.matrix, (.tok .i32 .must), (.tok .i32 .no), (.tok .coord .no), .i, 1, false, true, true, true, false, false⟩
  | .oploadCodebook _ => ⟨.matrix, (.tok .i32 .must), (.tok .i32 .no), .absent, .i, 1, true, true, true, true, false, false⟩
  | .mma _ => ⟨.matrix, (.tok .i32 .must), (.tok .i32 .no), (.tok .i32 .no), .t, 1, true, true, true, true, false, false⟩
  | .accZero _ => ⟨.matrix, (.tok .i32 .must), (.tok .i32 .no), .absent, .t, 1, true, true, true, true, false, false⟩
  | .accRead _ => ⟨.matrix, (.tok .i32 .must), (.tok .i32 .no), .absent, .t, 1, true, true, true, true, false, false⟩
  | .accPeek _ => ⟨.matrix, (.tok .i32 .must), (.tok .i32 .no), .absent, .t, 1, true, true, true, true, false, false⟩
  | .accWrite _ => ⟨.matrix, (.tok .i32 .must), (.tok .i32 .no), (.tok .i32 .no), .i, 1, true, true, true, true, false, false⟩
  | .accStore _ => ⟨.matrix, (.tok .i32 .must), (.tok .i32 .no), (.tok .i32 .no), .i, 1, true, true, true, true, false, false⟩
  | .topup _ => ⟨.engine, (.tok .i32 .may), (.tok .any .no), .absent, .i, 1, false, true, true, false, false, false⟩
  | .tack _ => ⟨.engine, (.tok .data .no), .absent, .absent, .i, 1, false, true, true, true, false, false⟩
  | .leave _ => ⟨.engine, (.tok .i32 .may), (.tok .any .no), .absent, .t, 1, false, true, true, false, false, false⟩
  | .meter _ => ⟨.engine, (.tok .i32 .may), (.tok .any .no), .absent, .t, 1, false, true, true, false, false, false⟩
  | .grant _ => ⟨.engine, (.tok .i32 .may), (.tok .i32 .no), .absent, .i, 1, false, true, true, false, false, false⟩
  | .resumev _ => ⟨.engine, (.tok .any .no), .absent, .absent, .t, 1, false, true, true, true, false, false⟩
  | .launch _ => ⟨.engine, (.tok .i32 .must), (.tok .i32 .no), .absent, .i, 1, false, true, true, true, false, false⟩
  | .nextw _ => ⟨.engine, (.tok .any .no), .absent, .absent, .t, 1, false, true, true, false, false, false⟩
  | .trap _ => ⟨.engine, (.tok .i32 .may), (.tok .any .no), .absent, .i, 1, false, true, false, false, false, false⟩
  | .srd _ => ⟨.engine, (.tok .i32 .may), (.tok .any .no), .absent, .i, 1, false, true, true, false, false, false⟩
  | .swr _ => ⟨.engine, (.tok .i32 .may), (.tok .i32 .no), .absent, .i, 1, false, true, true, false, false, false⟩
  | .time _ => ⟨.engine, (.tok .any .no), .absent, .absent, .t, 1, false, true, true, true, false, false⟩
  | .freeze _ => ⟨.engine, (.tok .i32 .may), (.tok .any .no), .absent, .i, 1, false, true, true, false, false, false⟩
  | .thaw _ => ⟨.engine, (.tok .i32 .may), (.tok .i32 .no), .absent, .i, 1, false, true, true, false, false, false⟩
  | .preempt _ => ⟨.engine, (.tok .i32 .may), (.tok .i32 .no), .absent, .i, 1, false, true, true, false, false, false⟩
  | .copy _ => ⟨.engine, (.tok .i32 .may), (.tok .i32 .no), .absent, .i, 1, false, true, true, true, false, false⟩
  | .gather _ => ⟨.engine, (.tok .i32 .may), (.tok .i32 .no), .absent, .i, 1, false, true, true, true, false, false⟩
  | .scatter _ => ⟨.engine, (.tok .i32 .may), (.tok .i32 .no), .absent, .i, 1, false, true, true, true, false, false⟩
  | .allreduce _ => ⟨.engine, (.tok .i32 .must), (.tok .i32 .no), .absent, .i, 1, false, true, true, true, false, false⟩
  | .allgather _ => ⟨.engine, (.tok .i32 .must), (.tok .i32 .no), .absent, .i, 1, false, true, true, true, false, false⟩
  | .reducescatter _ => ⟨.engine, (.tok .i32 .must), (.tok .i32 .no), .absent, .i, 1, false, true, true, true, false, false⟩
  | .broadcast _ => ⟨.engine, (.tok .i32 .must), (.tok .i32 .no), .absent, .i, 1, false, true, true, true, false, false⟩
  | .remwr _ => ⟨.engine, (.tok .i32 .may), (.tok .i32 .no), .absent, .i, 1, false, true, true, true, false, false⟩
  | .rematom _ => ⟨.engine, (.tok .i32 .may), (.tok .i32 .no), .absent, .i, 1, false, true, true, true, false, false⟩
  | .lwopen _ => ⟨.engine, (.tok .i32 .may), (.tok .i32 .no), .absent, .t, 1, false, true, true, true, false, false⟩
  | .lwclose _ => ⟨.engine, (.tok .i32 .may), (.tok .any .no), .absent, .t, 1, false, true, true, false, false, false⟩
  | .epopen _ => ⟨.engine, (.tok .i32 .may), (.tok .i32 .no), (.tok .i32 .no), .i, 1, false, true, true, true, false, false⟩
  | .epstep _ => ⟨.engine, (.tok .f32 .no), (.tok .f32 .no), (.tok .i32 .no), .i, 1, false, true, true, true, false, false⟩
  | .epend _ => ⟨.engine, (.tok .f32 .no), (.tok .i32 .no), .absent, .i, 1, false, true, true, true, false, false⟩
  | .rwsend _ => ⟨.engine, (.tok .i32 .may), (.tok .i32 .no), (.tok .f32 .no), .i, 1, false, true, true, true, false, false⟩
  | .jcfg _ => ⟨.engine, (.tok .i32 .may), (.tok .i32 .no), .absent, .i, 1, false, true, true, true, false, false⟩
  | .lvset _ => ⟨.engine, (.tok .i32 .may), (.tok .any .no), .absent, .i, 1, false, true, true, true, false, false⟩
  | .jstat _ => ⟨.engine, (.tok .i32 .may), (.tok .any .no), .absent, .i, 1, false, true, true, true, false, false⟩
  | .tokenArrival _ => .event
  | .spillSearch _ => .event
  | .heldTokenAccept _ => .event
  | .headerLatchFreed _ => .event
  | .tokenRoute _ => .event
  | .contextGrant _ => .event
  | .sweepStart _ => .event
  | .sweepEnd _ => .event
  | .instanceCommit _ _ => .event
  | .heldExitDelivery _ _ => .event
  | .quiescenceTimeout _ => .event
  | .entryInjection _ => .event
  | .loopiIssue _ _ => .event
  | .heldFaultRecheck _ _ _ => .event
  | .loadOrderRelease _ _ _ => .event
  | .translationWalk _ _ _ => .event
  | .readComplete _ _ _ => .event
  | .streamEngineAcquire _ _ _ => .event
  | .circuitSetup _ _ _ => .event
  | .streamElementAccess _ _ => .event
  | .streamDataArrival _ => .event
  | .scoreboardWaitEnd _ _ _ => .event
  | .atOnceRelease _ _ _ => .event
  | .bankOperation _ _ _ => .event
  | .bankReply _ _ _ _ => .event
  | .atomscTokenVisit _ => .event
  | .structRequest _ _ _ => .event
  | .structPoolWaitEnd _ _ _ => .event
  | .readerCancel _ _ => .event
  | .lockRelease _ _ _ => .event
  | .lockTileWaitEnd _ _ _ => .event
  | .queuePutServe _ _ _ => .event
  | .queueGetServe _ _ _ => .event
  | .queueWaitExpire _ _ _ => .event
  | .enginePortDepart _ _ _ => .event
  | .engineCommandStart _ _ => .event
  | .engineCommandComplete _ _ _ => .event
  | .rowLanding _ => .event
  | .landingAck _ _ _ _ => .event
  | .failureAck _ _ _ _ _ => .event
  | .commitTokenReceive _ => .event
  | .abortTokenReceive _ => .event
  | .remoteAtomicReceive _ => .event
  | .remoteAtomicReply _ _ _ _ _ => .event
  | .collContribution _ => .event
  | .hostToken _ _ _ => .event
  | .hostQueueWaitEnd _ _ => .event
  | .flitReceive _ _ => .event
  | .flitRetry _ => .event
  | .linkDown _ => .event
  | .linkRetrain _ => .event
  | .launchDecrement _ => .event
  | .readyNoticeWaitEnd _ => .event
  | .readinessCheck _ => .event
  | .schedulerScan _ => .event
  | .agingStep _ _ => .event
  | .blockFetch _ => .event
  | .launchResources _ => .event
  | .meterLevel _ => .event
  | .fillComplete _ _ => .event
  | .placementCheck _ => .event
  | .taskCommit _ => .event
  | .commitDrain _ => .event
  | .commitTokenSend _ => .event
  | .commitRelease _ => .event
  | .taskAbort _ => .event
  | .park _ => .event
  | .faultQueueAppend _ _ => .event
  | .preemptFreeze _ _ => .event
  | .preemptSave _ => .event
  | .restoreTask _ => .event
  | .pumpFeed _ _ _ => .event
  | .floorStop _ _ => .event
  | .topupPoolServe _ _ _ => .event
  | .topupApply _ _ _ _ => .event
  | .targetMoveComplete _ _ => .event
  | .leaveCeilingRaise _ _ => .event
  | .leaveCeilingFall _ _ => .event
  | .leaveViolation _ _ _ _ => .event
  | .mmaComplete _ _ _ => .event
  | .oploadComplete _ _ _ => .event
  | .sparseCoordinate _ => .event
  | .rewardArrival _ => .event
  | .episodeDeadline _ _ => .event
  | .episodeScan _ _ => .event
  | .episodeRelease _ _ => .event
  | .pkPoolWrite _ => .event
  | .qmTargetWrite _ => .event
  | .qmCtlWrite _ => .event
  | .hcQuietWrite _ => .event
  | .pkTlbinvWrite _ => .event
  | .tlbInvalidateDone => .event
  | .pkCtlRun _ => .event
  | .pkNodeWrite _ => .event
  | .jtCtlWrite _ => .event
  | .registerWrite _ => .event
  | .sensorSample => .event
  | .controlPeriod => .event
  | .watchdogFire => .event
  | .feedWindow => .event
  | .feedcapReached => .event
  | .pumpRailLow => .event
  | .pumpRailRestore => .event
  | .dramRefresh _ _ => .event
  | .packageTick => .event
  | .resetPackage _ => .event
  | .dramTrain => .event
  | .firmwareLoad _ => .event
  | .attestationRequest _ => .event
  | .keyInstall _ _ => .event
  | .systemAgentWrite _ _ _ => .event
  | .systemAgentRead _ _ _ => .event
  | .configScrub _ _ _ => .event
  | .preemptionWaitElapsed _ => .event
  | .linkTrained _ _ => .event

/-- The bank operation of an ATOM or ATOMSC instruction (R97). -/
def Instr.bankOp? : Instr → Option BankOp
  | .aadd _ => some .aadd
  | .afadd _ => some .afadd
  | .amin _ => some .amin
  | .amax _ => some .amax
  | .aminu _ => some .aminu
  | .amaxu _ => some .amaxu
  | .aand _ => some .aand
  | .aor _ => some .aor
  | .axor _ => some .axor
  | .aswap _ => some .aswap
  | .acas _ => some .acas
  | .afmin _ => some .afmin
  | .afmax _ => some .afmax
  | .atomsc _ op => some op
  | _ => none

/-- The port of a target field: 0 A, 1 B, 2 C, 3 P (R87). -/
def targetPort (t : BitVec 9) : BitVec 2 := t.extractLsb' 7 2

/-- The instruction index of a target field (R87). -/
def targetInst (t : BitVec 9) : BitVec 7 := t.extractLsb' 0 7

/-- Whether a port takes a token, under the literal bits of the word (R30). -/
def Instr.takesToken (i : Instr) (port : BitVec 2) : Bool :=
  let f := i.fields
  match port.toNat with
  | 0 => i.spec.a != .absent && !f.la
  | 1 => i.spec.b != .absent && !f.lb
  | 2 => i.spec.c != .absent
  | _ => f.pr

/-- What a token port accepts (R31). The P port accepts I32 (R134) and, on an S-form instruction, a LOCK
token (R273). -/
def Instr.accepts (i : Instr) (port : BitVec 2) : Accept :=
  let of : PortSpec → Accept := fun p => match p with
    | .absent => ⟨0#7, 0#7⟩
    | .tok acc _ => acc
  match port.toNat with
  | 0 => of i.spec.a
  | 1 => of i.spec.b
  | 2 => of i.spec.c
  | _ => if i.spec.place = .selvage then ⟨0x01#7, 0x10#7⟩ else .i32

end Sys2Proof
end

