-- ==== Sys2Proof/Decode.lean ====
section
/-!
DEFINITION. Decoding an instruction from its word and its literal word (R86 to R98), and the encoder
written from the same tables. Decoding is total and refuses by name; what a literal's further fields may
hold, and the rules that tie the literal bits to an opcode's ports, are the well-formedness checks of
`Sys2Proof/WellFormed.lean`.
-/

namespace Sys2Proof

/-- Why a word is refused before it has a meaning. The front end reports the REASON of R110. -/
inductive DecodeError where
  /-- The opcode is one that R95 refuses (REASON 0x03). -/
  | opcode
  /-- A mod, sub or FORM value that R92, R96, R97 and R98 do not assign (REASON 0x04). -/
  | value
  /-- A tag action 0x9 to 0xF (REASON 0x05). -/
  | tagAction
  /-- A nonzero reserved bit of the word's form (REASON 0x05). -/
  | reserved
  /-- `la` and `lb` both set (REASON 0x07, R93). -/
  | bothLiterals
  /-- The control literal of R92 that selects the form is absent (REASON 0x07). -/
  | noControlLiteral
  /-- Fewer bytes than the instruction has. -/
  | short
  deriving DecidableEq, Repr

/-- The tag actions by their code (R93). -/
def decodeTact (t : BitVec 4) : Option Tact :=
  match t.toNat with
  | 0 => some .keep | 1 => some .inc | 2 => some .dec | 3 => some .zero | 4 => some .child
  | 5 => some .parent | 6 => some .popp | 7 => some .clrp | 8 => some .run1 | _ => none

def Tact.code : Tact → BitVec 4
  | .keep => 0 | .inc => 1 | .dec => 2 | .zero => 3 | .child => 4 | .parent => 5 | .popp => 6
  | .clrp => 7 | .run1 => 8

def decodeWidth (w : BitVec 2) : Option Width :=
  match w.toNat with
  | 0 => some .byte | 1 => some .half | 2 => some .word | _ => none

def Width.code : Width → BitVec 2
  | .byte => 0 | .half => 1 | .word => 2

/-- The number of bytes of an access width. -/
def Width.bytes : Width → Nat
  | .byte => 1 | .half => 2 | .word => 4

/-- The bank operations by their code (R97). -/
def decodeBankOp (m : BitVec 4) : Option BankOp :=
  match m.toNat with
  | 0 => some .aadd | 1 => some .afadd | 2 => some .amin | 3 => some .amax | 4 => some .aminu
  | 5 => some .amaxu | 6 => some .aand | 7 => some .aor | 8 => some .axor | 9 => some .aswap
  | 10 => some .acas | 11 => some .afmin | 12 => some .afmax | _ => none

def BankOp.code : BankOp → BitVec 4
  | .aadd => 0 | .afadd => 1 | .amin => 2 | .amax => 3 | .aminu => 4 | .amaxu => 5 | .aand => 6
  | .aor => 7 | .axor => 8 | .aswap => 9 | .acas => 10 | .afmin => 11 | .afmax => 12

/-- The ATOM instruction of a bank operation. -/
def BankOp.atom (op : BankOp) (f : SForm) : Instr :=
  match op with
  | .aadd => .aadd f
  | .afadd => .afadd f
  | .amin => .amin f
  | .amax => .amax f
  | .aminu => .aminu f
  | .amaxu => .amaxu f
  | .aand => .aand f
  | .aor => .aor f
  | .axor => .axor f
  | .aswap => .aswap f
  | .acas => .acas f
  | .afmin => .afmin f
  | .afmax => .afmax f

/-- The opcode field (R86). -/
def opcOf (w : Word) : BitVec 7 := w.extractLsb' 25 7

/-- The standard-form opcodes whose instruction the opcode alone fixes (R94). -/
def stdInstr (opc : Nat) (f : StdForm) : Option Instr :=
  match opc with
  | 0x01 => some (.add f)
  | 0x02 => some (.sub f)
  | 0x03 => some (.adds f)
  | 0x04 => some (.subs f)
  | 0x05 => some (.addus f)
  | 0x06 => some (.subus f)
  | 0x07 => some (.mul f)
  | 0x08 => some (.mulh f)
  | 0x09 => some (.mulhu f)
  | 0x0A => some (.div f)
  | 0x0B => some (.divu f)
  | 0x0C => some (.rem f)
  | 0x0D => some (.remu f)
  | 0x0E => some (.and f)
  | 0x0F => some (.or f)
  | 0x10 => some (.xor f)
  | 0x11 => some (.andn f)
  | 0x12 => some (.shl f)
  | 0x13 => some (.shr f)
  | 0x14 => some (.sar f)
  | 0x15 => some (.rol f)
  | 0x16 => some (.clz f)
  | 0x17 => some (.ctz f)
  | 0x18 => some (.popc f)
  | 0x19 => some (.brev f)
  | 0x1A => some (.min f)
  | 0x1B => some (.max f)
  | 0x1C => some (.minu f)
  | 0x1D => some (.maxu f)
  | 0x1E => some (.abs f)
  | 0x1F => some (.neg f)
  | 0x20 => some (.sel f)
  | 0x21 => some (.extb f)
  | 0x22 => some (.exth f)
  | 0x23 => some (.bfx f)
  | 0x24 => some (.bfi f)
  | 0x25 => some (.teq f)
  | 0x26 => some (.tne f)
  | 0x27 => some (.tlt f)
  | 0x28 => some (.tle f)
  | 0x29 => some (.tltu f)
  | 0x2A => some (.tleu f)
  | 0x2B => some (.muladd f)
  | 0x30 => some (.fadd f)
  | 0x31 => some (.fsub f)
  | 0x32 => some (.fmul f)
  | 0x33 => some (.ffma f)
  | 0x34 => some (.ffms f)
  | 0x35 => some (.fmin f)
  | 0x36 => some (.fmax f)
  | 0x37 => some (.fabs f)
  | 0x38 => some (.fneg f)
  | 0x39 => some (.feq f)
  | 0x3A => some (.flt f)
  | 0x3B => some (.fle f)
  | 0x3C => some (.funo f)
  | 0x3D => some (.fclass f)
  | 0x3E => some (.frnd f)
  | 0x3F => some (.fdiv f)
  | 0x40 => some (.fsqrt f)
  | 0x41 => some (.frcp f)
  | 0x42 => some (.frsq f)
  | 0x43 => some (.fexp2 f)
  | 0x44 => some (.flog2 f)
  | 0x48 => some (.mov f)
  | 0x49 => some (.nullTok f)
  | 0x4A => some (.steer f)
  | 0x4B => some (.merge f)
  | 0x4F => some (.loopi f)
  | 0x50 => some (.brk f)
  | 0x51 => some (.call f)
  | 0x52 => some (.ret f)
  | 0x53 => some (.iterv f)
  | 0x54 => some (.ctxv f)
  | 0x55 => some (.workid f)
  | 0x56 => some (.pmark f)
  | 0x57 => some (.comb f)
  | 0x58 => some (.eos f)
  | 0x59 => some (.barr f)
  | 0x5A => some (.bwait f)
  | 0x5B => some (.fence f)
  | 0x5C => some (.split f)
  | 0x5D => some (.join f)
  | 0x5E => some (.hdrt f)
  | 0x70 => some (.cvt f)
  | 0x71 => some (.padd2 f)
  | 0x72 => some (.pmul2 f)
  | 0x73 => some (.pfma2 f)
  | 0x74 => some (.dot2 f)
  | 0x75 => some (.dot4 f)
  | 0x76 => some (.reord f)
  | 0x77 => some (.qsend f)
  | _ => none

/-- The standard-form opcodes whose control literal's FORM selects the instruction (R92). -/
def formInstr (opc : Nat) (form : Nat) (f : StdForm) : Option Instr :=
  match opc, form with
  | 0x78, 0 => some (.oslotClaim f)
  | 0x78, 1 => some (.oslotRelease f)
  | 0x79, 0 => some (.oploadDense f)
  | 0x79, 1 => some (.oploadSparse f)
  | 0x79, 2 => some (.oploadCodebook f)
  | 0x7A, 0 => some (.mma f)
  | 0x7A, 1 => some (.mma f)
  | 0x7A, 2 => some (.mma f)
  | 0x7B, 0 => some (.accZero f)
  | 0x7B, 1 => some (.accRead f)
  | 0x7B, 2 => some (.accPeek f)
  | 0x7B, 3 => some (.accWrite f)
  | 0x7B, 4 => some (.accStore f)
  | _, _ => none

/-- Whether the literal of this opcode selects the instruction (R92), for the standard form. -/
def isFormOpcode (opc : Nat) : Bool := 0x78 ≤ opc && opc ≤ 0x7B

/-- The S-form instructions by opcode and `mod` (R96, R97). -/
def sInstr (opc : Nat) (mod : BitVec 4) (f : SForm) : Option Instr :=
  let width := decodeWidth (mod.extractLsb' 2 2)
  let fmt : BitVec 3 := mod.extractLsb' 0 3
  let dir := mod.getLsbD 3
  match opc with
  | 0x60 => match width with
    | some w =>
      if mod.getLsbD 0 || (mod.getLsbD 1 && decide (w = .word)) then none else some (.ld f w (mod.getLsbD 1))
    | none => none
  | 0x61 => match width with
    | some w => if mod.extractLsb' 0 2 = 0#2 then some (.st f w) else none
    | none => none
  | 0x62 => if dir || decide (fmt.toNat ≥ 6) then none else some (.ldv f fmt)
  | 0x63 => if dir || decide (fmt.toNat ≥ 6) then none else some (.stv f fmt)
  | 0x64 => if fmt.toNat ≥ 6 then none else some (if dir then .sopenWrite f fmt else .sopenRead f fmt)
  | 0x65 => if fmt.toNat ≥ 6 then none else some (if dir then .sindWrite f fmt else .sindRead f fmt)
  | 0x66 => if mod = 0#4 then some (.sclose f) else none
  | 0x67 => if mod = 0#4 then some (.sbar f) else none
  | 0x68 => if mod = 0#4 then some (.iread f) else none
  | 0x69 => if mod = 0#4 then some (.iwrite f) else none
  | 0x6A => if mod = 0#4 then some (.iclear f) else none
  | 0x6B => (decodeBankOp mod).map (fun op => op.atom f)
  | 0x6C => (decodeBankOp mod).map (fun op => .atomsc f op)
  | 0x6D => if mod = 0#4 then some (.lock f) else none
  | 0x6E => if mod = 0#4 then some (.unlock f) else none
  | 0x6F => if mod = 0#4 then some (.qput f) else if mod = 1#4 then some (.qget f) else none
  | _ => none

/-- The X-form instructions by opcode and `sub` (R98); COLL's instruction is selected by its FORM. -/
def xInstr (opc sub form : Nat) (f : XForm) : Option Instr :=
  match opc, sub with
  | 0x7C, 0x00 => some (.topup f)
  | 0x7C, 0x01 => some (.tack f)
  | 0x7C, 0x02 => some (.leave f)
  | 0x7C, 0x03 => some (.meter f)
  | 0x7C, 0x04 => some (.grant f)
  | 0x7C, 0x05 => some (.resumev f)
  | 0x7C, 0x06 => some (.launch f)
  | 0x7C, 0x07 => some (.nextw f)
  | 0x7C, 0x08 => some (.trap f)
  | 0x7C, 0x09 => some (.srd f)
  | 0x7C, 0x0A => some (.swr f)
  | 0x7C, 0x0B => some (.time f)
  | 0x7C, 0x0C => some (.freeze f)
  | 0x7C, 0x0D => some (.thaw f)
  | 0x7C, 0x0E => some (.preempt f)
  | 0x7D, 0x00 => some (.copy f)
  | 0x7D, 0x01 => some (.gather f)
  | 0x7D, 0x02 => some (.scatter f)
  | 0x7D, 0x04 => some (.remwr f)
  | 0x7D, 0x05 => some (.rematom f)
  | 0x7D, 0x06 => some (.lwopen f)
  | 0x7D, 0x07 => some (.lwclose f)
  | 0x7E, 0x00 => some (.epopen f)
  | 0x7E, 0x01 => some (.epstep f)
  | 0x7E, 0x02 => some (.epend f)
  | 0x7E, 0x03 => some (.rwsend f)
  | 0x7E, 0x04 => some (.jcfg f)
  | 0x7E, 0x05 => some (.lvset f)
  | 0x7E, 0x06 => some (.jstat f)
  | 0x7D, 0x03 => match form with
    | 0 => some (.allreduce f)
    | 1 => some (.allgather f)
    | 2 => some (.reducescatter f)
    | 3 => some (.broadcast f)
    | _ => none
  | _, _ => none

/-- The FORM field of a control literal (R92). -/
def formOf (lit : Word) : Nat := (lit.extractLsb' 0 4).toNat

/-- The opcodes that R95 refuses. -/
def opcodeRefused (opc : Nat) : Bool :=
  opc == 0x00 || (0x2C ≤ opc && opc ≤ 0x2F) || (0x45 ≤ opc && opc ≤ 0x47) || opc == 0x5F || opc ≥ 0x7F

def requireSome {α : Type} (e : DecodeError) : Option α → Except DecodeError α
  | some v => .ok v
  | none => .error e

/-- Whether an instruction word has a literal word (R81, R86, R88, R91); one of an unassigned opcode by the same bits (log
entry 130). -/
def wordHasLiteral (w : Word) : Bool :=
  let opc := (opcOf w).toNat
  if opc == 0x4C || opc == 0x4D || opc == 0x4E then false
  else if 0x7C ≤ opc && opc ≤ 0x7E then w.getLsbD 18
  else w.getLsbD 20 || w.getLsbD 19

/-- Decodes an instruction word with the literal word that belongs to it. A word without a literal bit is
decoded with literal zero whatever is passed. -/
def decode (w lit0 : Word) : Except DecodeError Instr :=
  let opc := (opcOf w).toNat
  let lit := if wordHasLiteral w then lit0 else 0#32
  let t0 : BitVec 9 := w.extractLsb' 9 9
  let t1 : BitVec 9 := w.extractLsb' 0 9
  if opcodeRefused opc then .error .opcode
  else if opc == 0x4C then
    if w.extractLsb' 21 4 = 0#4 ∧ w.extractLsb' 0 18 = 0#18 then .ok (.exit (w.extractLsb' 18 3))
    else .error .reserved
  else if opc == 0x4D || opc == 0x4E then
    let f : RwForm := ⟨w.extractLsb' 20 5, t0, t1⟩
    if w.extractLsb' 18 2 = 0#2 then .ok (if opc == 0x4D then .read f else .write f)
    else .error .reserved
  else if 0x7C ≤ opc then
    let sub := (w.extractLsb' 19 6).toNat
    let la := w.getLsbD 18
    if opc == 0x7D && sub == 0x03 && !la then .error .noControlLiteral
    else requireSome .value (xInstr opc sub (formOf lit) ⟨la, t0, t1, lit⟩)
  else
    let la := w.getLsbD 20
    let lb := w.getLsbD 19
    let pr := w.getLsbD 18
    if 0x60 ≤ opc && opc ≤ 0x6F then
      if la && lb then .error .bothLiterals
      else requireSome .value
        (sInstr opc (w.extractLsb' 0 4) ⟨w.extractLsb' 21 4, la, lb, pr, t0, w.extractLsb' 4 5, lit⟩)
    else
      match decodeTact (w.extractLsb' 21 4) with
      | none => .error .tagAction
      | some tact =>
        if la && lb then .error .bothLiterals
        else
          let f : StdForm := ⟨tact, la, lb, pr, t0, t1, lit⟩
          if isFormOpcode opc then
            if la then requireSome .value (formInstr opc (formOf lit) f) else .error .noControlLiteral
          else requireSome .opcode (stdInstr opc f)

/-- The REASON code of R110 that the front end reports for a refusal. -/
def DecodeError.reason : DecodeError → BitVec 8
  | .opcode => 0x03#8
  | .value => 0x04#8
  | .tagAction => 0x05#8
  | .reserved => 0x05#8
  | .bothLiterals => 0x07#8
  | .noControlLiteral => 0x07#8
  | .short => 0x02#8

/-- A 32-bit word from its four bytes, the first the least significant (R3). -/
def wordOfBytes (b0 b1 b2 b3 : Byte) : Word := b3 ++ b2 ++ b1 ++ b0

/-- The four bytes of a word as memory holds them (R3). -/
def bytesOfWord (w : Word) : List Byte :=
  [w.extractLsb' 0 8, w.extractLsb' 8 8, w.extractLsb' 16 8, w.extractLsb' 24 8]

/-- Decodes an instruction from bytes: its word, then its literal word when it has one, and returns the
bytes that follow. -/
def decodeBytes : List Byte → Except DecodeError (Instr × List Byte)
  | b0 :: b1 :: b2 :: b3 :: rest =>
    let w := wordOfBytes b0 b1 b2 b3
    if wordHasLiteral w then
      match rest with
      | l0 :: l1 :: l2 :: l3 :: rest' =>
        match decode w (wordOfBytes l0 l1 l2 l3) with
        | .ok i => .ok (i, rest')
        | .error e => .error e
      | _ => .error .short
    else match decode w 0#32 with
      | .ok i => .ok (i, rest)
      | .error e => .error e
  | _ => .error .short

/-- The bytes of an instruction whose bits, numbered as the opcode table numbers them, are `w`: `nbits`
bits of `w`, then zeros up to the longest instruction (a word and a literal word). -/
def tableBytes (nbits w : Nat) : List Byte :=
  let v := w % 2 ^ nbits
  (List.range 8).map (fun k => BitVec.ofNat 8 (v / 2 ^ (8 * k)))

/-- The instruction the decoder reads from a word of the opcode table. -/
def decodeTableWord (nbits w : Nat) : Option Instr :=
  match decodeBytes (tableBytes nbits w) with
  | .ok (i, _) => some i
  | .error _ => none

def bit1 (b : Bool) : BitVec 1 := BitVec.ofBool b

/-- The word of a standard-form instruction (R86). -/
def encodeStd (opc : BitVec 7) (f : StdForm) : Word :=
  opc ++ f.tact.code ++ bit1 f.la ++ bit1 f.lb ++ bit1 f.pr ++ f.t0 ++ f.t1

/-- The word of an S-form instruction (R88). -/
def encodeS (opc : BitVec 7) (mod : BitVec 4) (f : SForm) : Word :=
  opc ++ f.seg ++ bit1 f.la ++ bit1 f.lb ++ bit1 f.pr ++ f.t0 ++ f.lsid ++ mod

/-- The word of a READ/WRITE-form instruction (R89). -/
def encodeRw (opc : BitVec 7) (f : RwForm) : Word := opc ++ f.fw ++ (0#2) ++ f.t0 ++ f.t1

/-- The word of EXIT (R90). -/
def encodeExit (e : BitVec 3) : Word := (0x4C#7) ++ (0#4) ++ e ++ (0#18)

/-- The word of an X-form instruction (R91). -/
def encodeX (opc : BitVec 7) (sub : BitVec 6) (f : XForm) : Word :=
  opc ++ sub ++ bit1 f.la ++ f.t0 ++ f.t1

/-- `mod` with a format in [2:0] and a direction in [3] (R96). -/
def modFmt (dir : Bool) (fmt : BitVec 3) : BitVec 4 := bit1 dir ++ fmt

/-- The word of an instruction; an event has none. The literal word is `i.fields.lit`. -/
def encodeWord : Instr → Option Word
  | .add f => some (encodeStd 0x01 f)
  | .sub f => some (encodeStd 0x02 f)
  | .adds f => some (encodeStd 0x03 f)
  | .subs f => some (encodeStd 0x04 f)
  | .addus f => some (encodeStd 0x05 f)
  | .subus f => some (encodeStd 0x06 f)
  | .mul f => some (encodeStd 0x07 f)
  | .mulh f => some (encodeStd 0x08 f)
  | .mulhu f => some (encodeStd 0x09 f)
  | .div f => some (encodeStd 0x0A f)
  | .divu f => some (encodeStd 0x0B f)
  | .rem f => some (encodeStd 0x0C f)
  | .remu f => some (encodeStd 0x0D f)
  | .and f => some (encodeStd 0x0E f)
  | .or f => some (encodeStd 0x0F f)
  | .xor f => some (encodeStd 0x10 f)
  | .andn f => some (encodeStd 0x11 f)
  | .shl f => some (encodeStd 0x12 f)
  | .shr f => some (encodeStd 0x13 f)
  | .sar f => some (encodeStd 0x14 f)
  | .rol f => some (encodeStd 0x15 f)
  | .clz f => some (encodeStd 0x16 f)
  | .ctz f => some (encodeStd 0x17 f)
  | .popc f => some (encodeStd 0x18 f)
  | .brev f => some (encodeStd 0x19 f)
  | .min f => some (encodeStd 0x1A f)
  | .max f => some (encodeStd 0x1B f)
  | .minu f => some (encodeStd 0x1C f)
  | .maxu f => some (encodeStd 0x1D f)
  | .abs f => some (encodeStd 0x1E f)
  | .neg f => some (encodeStd 0x1F f)
  | .sel f => some (encodeStd 0x20 f)
  | .extb f => some (encodeStd 0x21 f)
  | .exth f => some (encodeStd 0x22 f)
  | .bfx f => some (encodeStd 0x23 f)
  | .bfi f => some (encodeStd 0x24 f)
  | .teq f => some (encodeStd 0x25 f)
  | .tne f => some (encodeStd 0x26 f)
  | .tlt f => some (encodeStd 0x27 f)
  | .tle f => some (encodeStd 0x28 f)
  | .tltu f => some (encodeStd 0x29 f)
  | .tleu f => some (encodeStd 0x2A f)
  | .muladd f => some (encodeStd 0x2B f)
  | .fadd f => some (encodeStd 0x30 f)
  | .fsub f => some (encodeStd 0x31 f)
  | .fmul f => some (encodeStd 0x32 f)
  | .ffma f => some (encodeStd 0x33 f)
  | .ffms f => some (encodeStd 0x34 f)
  | .fmin f => some (encodeStd 0x35 f)
  | .fmax f => some (encodeStd 0x36 f)
  | .fabs f => some (encodeStd 0x37 f)
  | .fneg f => some (encodeStd 0x38 f)
  | .feq f => some (encodeStd 0x39 f)
  | .flt f => some (encodeStd 0x3A f)
  | .fle f => some (encodeStd 0x3B f)
  | .funo f => some (encodeStd 0x3C f)
  | .fclass f => some (encodeStd 0x3D f)
  | .frnd f => some (encodeStd 0x3E f)
  | .fdiv f => some (encodeStd 0x3F f)
  | .fsqrt f => some (encodeStd 0x40 f)
  | .frcp f => some (encodeStd 0x41 f)
  | .frsq f => some (encodeStd 0x42 f)
  | .fexp2 f => some (encodeStd 0x43 f)
  | .flog2 f => some (encodeStd 0x44 f)
  | .mov f => some (encodeStd 0x48 f)
  | .nullTok f => some (encodeStd 0x49 f)
  | .steer f => some (encodeStd 0x4A f)
  | .merge f => some (encodeStd 0x4B f)
  | .exit e => some (encodeExit e)
  | .read f => some (encodeRw 0x4D f)
  | .write f => some (encodeRw 0x4E f)
  | .loopi f => some (encodeStd 0x4F f)
  | .brk f => some (encodeStd 0x50 f)
  | .call f => some (encodeStd 0x51 f)
  | .ret f => some (encodeStd 0x52 f)
  | .iterv f => some (encodeStd 0x53 f)
  | .ctxv f => some (encodeStd 0x54 f)
  | .workid f => some (encodeStd 0x55 f)
  | .pmark f => some (encodeStd 0x56 f)
  | .comb f => some (encodeStd 0x57 f)
  | .eos f => some (encodeStd 0x58 f)
  | .barr f => some (encodeStd 0x59 f)
  | .bwait f => some (encodeStd 0x5A f)
  | .fence f => some (encodeStd 0x5B f)
  | .split f => some (encodeStd 0x5C f)
  | .join f => some (encodeStd 0x5D f)
  | .hdrt f => some (encodeStd 0x5E f)
  | .ld f w sx => some (encodeS 0x60 (w.code ++ bit1 sx ++ 0#1) f)
  | .st f w => some (encodeS 0x61 (w.code ++ 0#2) f)
  | .ldv f fmt => some (encodeS 0x62 (modFmt false fmt) f)
  | .stv f fmt => some (encodeS 0x63 (modFmt false fmt) f)
  | .sopenRead f fmt => some (encodeS 0x64 (modFmt false fmt) f)
  | .sopenWrite f fmt => some (encodeS 0x64 (modFmt true fmt) f)
  | .sindRead f fmt => some (encodeS 0x65 (modFmt false fmt) f)
  | .sindWrite f fmt => some (encodeS 0x65 (modFmt true fmt) f)
  | .sclose f => some (encodeS 0x66 0x0 f)
  | .sbar f => some (encodeS 0x67 0x0 f)
  | .iread f => some (encodeS 0x68 0x0 f)
  | .iwrite f => some (encodeS 0x69 0x0 f)
  | .iclear f => some (encodeS 0x6A 0x0 f)
  | .aadd f => some (encodeS 0x6B 0x0 f)
  | .afadd f => some (encodeS 0x6B 0x1 f)
  | .amin f => some (encodeS 0x6B 0x2 f)
  | .amax f => some (encodeS 0x6B 0x3 f)
  | .aminu f => some (encodeS 0x6B 0x4 f)
  | .amaxu f => some (encodeS 0x6B 0x5 f)
  | .aand f => some (encodeS 0x6B 0x6 f)
  | .aor f => some (encodeS 0x6B 0x7 f)
  | .axor f => some (encodeS 0x6B 0x8 f)
  | .aswap f => some (encodeS 0x6B 0x9 f)
  | .acas f => some (encodeS 0x6B 0xA f)
  | .afmin f => some (encodeS 0x6B 0xB f)
  | .afmax f => some (encodeS 0x6B 0xC f)
  | .atomsc f op => some (encodeS 0x6C op.code f)
  | .lock f => some (encodeS 0x6D 0x0 f)
  | .unlock f => some (encodeS 0x6E 0x0 f)
  | .qput f => some (encodeS 0x6F 0x0 f)
  | .qget f => some (encodeS 0x6F 0x1 f)
  | .cvt f => some (encodeStd 0x70 f)
  | .padd2 f => some (encodeStd 0x71 f)
  | .pmul2 f => some (encodeStd 0x72 f)
  | .pfma2 f => some (encodeStd 0x73 f)
  | .dot2 f => some (encodeStd 0x74 f)
  | .dot4 f => some (encodeStd 0x75 f)
  | .reord f => some (encodeStd 0x76 f)
  | .qsend f => some (encodeStd 0x77 f)
  | .oslotClaim f => some (encodeStd 0x78 f)
  | .oslotRelease f => some (encodeStd 0x78 f)
  | .oploadDense f => some (encodeStd 0x79 f)
  | .oploadSparse f => some (encodeStd 0x79 f)
  | .oploadCodebook f => some (encodeStd 0x79 f)
  | .mma f => some (encodeStd 0x7A f)
  | .accZero f => some (encodeStd 0x7B f)
  | .accRead f => some (encodeStd 0x7B f)
  | .accPeek f => some (encodeStd 0x7B f)
  | .accWrite f => some (encodeStd 0x7B f)
  | .accStore f => some (encodeStd 0x7B f)
  | .topup f => some (encodeX 0x7C 0x00 f)
  | .tack f => some (encodeX 0x7C 0x01 f)
  | .leave f => some (encodeX 0x7C 0x02 f)
  | .meter f => some (encodeX 0x7C 0x03 f)
  | .grant f => some (encodeX 0x7C 0x04 f)
  | .resumev f => some (encodeX 0x7C 0x05 f)
  | .launch f => some (encodeX 0x7C 0x06 f)
  | .nextw f => some (encodeX 0x7C 0x07 f)
  | .trap f => some (encodeX 0x7C 0x08 f)
  | .srd f => some (encodeX 0x7C 0x09 f)
  | .swr f => some (encodeX 0x7C 0x0A f)
  | .time f => some (encodeX 0x7C 0x0B f)
  | .freeze f => some (encodeX 0x7C 0x0C f)
  | .thaw f => some (encodeX 0x7C 0x0D f)
  | .preempt f => some (encodeX 0x7C 0x0E f)
  | .copy f => some (encodeX 0x7D 0x00 f)
  | .gather f => some (encodeX 0x7D 0x01 f)
  | .scatter f => some (encodeX 0x7D 0x02 f)
  | .allreduce f => some (encodeX 0x7D 0x03 f)
  | .allgather f => some (encodeX 0x7D 0x03 f)
  | .reducescatter f => some (encodeX 0x7D 0x03 f)
  | .broadcast f => some (encodeX 0x7D 0x03 f)
  | .remwr f => some (encodeX 0x7D 0x04 f)
  | .rematom f => some (encodeX 0x7D 0x05 f)
  | .lwopen f => some (encodeX 0x7D 0x06 f)
  | .lwclose f => some (encodeX 0x7D 0x07 f)
  | .epopen f => some (encodeX 0x7E 0x00 f)
  | .epstep f => some (encodeX 0x7E 0x01 f)
  | .epend f => some (encodeX 0x7E 0x02 f)
  | .rwsend f => some (encodeX 0x7E 0x03 f)
  | .jcfg f => some (encodeX 0x7E 0x04 f)
  | .lvset f => some (encodeX 0x7E 0x05 f)
  | .jstat f => some (encodeX 0x7E 0x06 f)
  | .tokenArrival _ => none
  | .spillSearch _ => none
  | .heldTokenAccept _ => none
  | .headerLatchFreed _ => none
  | .tokenRoute _ => none
  | .contextGrant _ => none
  | .sweepStart _ => none
  | .sweepEnd _ => none
  | .instanceCommit _ _ => none
  | .heldExitDelivery _ _ => none
  | .quiescenceTimeout _ => none
  | .entryInjection _ => none
  | .loopiIssue _ _ => none
  | .heldFaultRecheck _ _ _ => none
  | .loadOrderRelease _ _ _ => none
  | .translationWalk _ _ _ => none
  | .readComplete _ _ _ => none
  | .streamEngineAcquire _ _ _ => none
  | .circuitSetup _ _ _ => none
  | .streamElementAccess _ _ => none
  | .streamDataArrival _ => none
  | .scoreboardWaitEnd _ _ _ => none
  | .atOnceRelease _ _ _ => none
  | .bankOperation _ _ _ => none
  | .bankReply _ _ _ _ => none
  | .atomscTokenVisit _ => none
  | .structRequest _ _ _ => none
  | .structPoolWaitEnd _ _ _ => none
  | .readerCancel _ _ => none
  | .lockRelease _ _ _ => none
  | .lockTileWaitEnd _ _ _ => none
  | .queuePutServe _ _ _ => none
  | .queueGetServe _ _ _ => none
  | .queueWaitExpire _ _ _ => none
  | .enginePortDepart _ _ _ => none
  | .engineCommandStart _ _ => none
  | .engineCommandComplete _ _ _ => none
  | .rowLanding _ => none
  | .landingAck _ _ _ _ => none
  | .failureAck _ _ _ _ _ => none
  | .commitTokenReceive _ => none
  | .abortTokenReceive _ => none
  | .remoteAtomicReceive _ => none
  | .remoteAtomicReply _ _ _ _ _ => none
  | .collContribution _ => none
  | .hostToken _ _ _ => none
  | .hostQueueWaitEnd _ _ => none
  | .flitReceive _ _ => none
  | .flitRetry _ => none
  | .linkDown _ => none
  | .linkRetrain _ => none
  | .launchDecrement _ => none
  | .readyNoticeWaitEnd _ => none
  | .readinessCheck _ => none
  | .schedulerScan _ => none
  | .agingStep _ _ => none
  | .blockFetch _ => none
  | .launchResources _ => none
  | .meterLevel _ => none
  | .fillComplete _ _ => none
  | .placementCheck _ => none
  | .taskCommit _ => none
  | .commitDrain _ => none
  | .commitTokenSend _ => none
  | .commitRelease _ => none
  | .taskAbort _ => none
  | .park _ => none
  | .faultQueueAppend _ _ => none
  | .preemptFreeze _ _ => none
  | .preemptSave _ => none
  | .restoreTask _ => none
  | .pumpFeed _ _ _ => none
  | .floorStop _ _ => none
  | .topupPoolServe _ _ _ => none
  | .topupApply _ _ _ _ => none
  | .targetMoveComplete _ _ => none
  | .leaveCeilingRaise _ _ => none
  | .leaveCeilingFall _ _ => none
  | .leaveViolation _ _ _ _ => none
  | .mmaComplete _ _ _ => none
  | .oploadComplete _ _ _ => none
  | .sparseCoordinate _ => none
  | .rewardArrival _ => none
  | .episodeDeadline _ _ => none
  | .episodeScan _ _ => none
  | .episodeRelease _ _ => none
  | .pkPoolWrite _ => none
  | .qmTargetWrite _ => none
  | .qmCtlWrite _ => none
  | .hcQuietWrite _ => none
  | .pkTlbinvWrite _ => none
  | .tlbInvalidateDone => none
  | .pkCtlRun _ => none
  | .pkNodeWrite _ => none
  | .jtCtlWrite _ => none
  | .registerWrite _ => none
  | .sensorSample => none
  | .controlPeriod => none
  | .watchdogFire => none
  | .feedWindow => none
  | .feedcapReached => none
  | .pumpRailLow => none
  | .pumpRailRestore => none
  | .dramRefresh _ _ => none
  | .packageTick => none
  | .resetPackage _ => none
  | .dramTrain => none
  | .firmwareLoad _ => none
  | .attestationRequest _ => none
  | .keyInstall _ _ => none
  | .systemAgentWrite _ _ _ => none
  | .systemAgentRead _ _ _ => none
  | .configScrub _ _ _ => none
  | .preemptionWaitElapsed _ => none
  | .linkTrained _ _ => none

/-- The words of an instruction as they stand in a block image: its word, and its literal word when it
has one (R81). Empty for an event. -/
def encode (i : Instr) : List Word :=
  match encodeWord i with
  | none => []
  | some w => if wordHasLiteral w then [w, i.fields.lit] else [w]

/-- Decodes the words that `encode` gives. -/
def decodeWords : List Word → Except DecodeError Instr
  | [w] => if wordHasLiteral w then .error .short else decode w 0#32
  | [w, lit] => decode w lit
  | _ => .error .short

end Sys2Proof
end

