-- ==== Sys2Proof/Machine/State.lean ====
section
/-!
DEFINITION. The state of one LKB-64 package: every piece of state the manual names, as plain data, the
reasons a step can stop, and the state after reset (R472). Fields that belong to the model and not to
the part say so.
-/

namespace Sys2Proof.Machine

/-- Why a step stops with a fault. Every fault of the manual (R338) is a next state, so this is only the
model's own. -/
inductive Fault where
  /-- Raised by every meaning of an instruction with an encoding when no matched set is being fired: the
  part never fires an instruction without one (R30). Safe. -/
  | noFiring
  deriving DecidableEq, Repr

/-- Why a step is refused. -/
inductive Refusal where
  /-- Raised by an arm of `exec` whose instruction has no meaning yet. Safe. -/
  | notModelled (mnemonic : String)
  /-- Raised by `step` when the set at the cursor names a word that no placed block holds or that does
  not decode: the front end places no such word (R95, R108). Safe. -/
  | undecodable (word : Word)
  deriving DecidableEq, Repr

/-- Memory: every byte of the package and of its hosts, by address (R291, R469). Package addresses are
physical addresses, which lie below 2^49; byte `a` of the memory of host node `n` is at
`(n + 1) * 2^49 + a`. An address that is not listed reads as zero. -/
abbrev Memory := List Host.Cell

/-- What a byte that is not listed reads as: R472 step 3 writes DRAM and shared memory with zero. For
scratchpad, operand memory and host memory it is the model's choice. -/
def Memory.unlisted : Byte := 0#8

/-- The canonical form of memory: addresses strictly rising and no byte equal to the unlisted one. -/
def Memory.wf : Memory → Bool
  | [] => true
  | [c] => c.2 != Memory.unlisted
  | c :: d :: m => c.2 != Memory.unlisted && decide (c.1 < d.1) && Memory.wf (d :: m)

/-- Who a provisional structure word belongs to (R258, R306, R425). `coll` lists the members whose
commit tokens have not yet come. -/
inductive Owner where
  | task (id : Nat)
  | remote (s : Sender)
  | coll (members : List Sender)
  deriving DecidableEq, Repr

/-- A waiting reader of a structure word (R259). -/
structure Reader where
  task : Nat
  op : Nat
  j : Nat
  tower : Nat
  deriving DecidableEq, Repr

/-- The states of a structure word other than empty (R258). -/
inductive WordCode where
  | deferred | provisional | full
  deriving DecidableEq, Repr

/-- The state, format and reader list of the structure word at `addr` (R258). A word that is not listed
is empty with format I32. `pend` is the value a landing-window row brought (R306). -/
structure WordState where
  addr : Nat
  code : WordCode
  fmt : BitVec 3
  owner : Option Owner
  pend : Word
  readers : List Reader
  deriving DecidableEq, Repr

/-- The encryption key a DRAM line was last written under: its index and the number of installs of that
index before the write (R475). A line that is not listed was written under key 0 before any install. -/
structure LineKey where
  line : Nat
  key : BitVec 12
  gen : Nat
  deriving DecidableEq, Repr

/-- A lock slot in use (R272, R275). -/
structure Lock where
  bank : Nat
  slot : Nat
  task : Nat
  inst : InstKey
  waiters : List Reader
  deriving DecidableEq, Repr

/-- A flag word of a bank that is not zero (R269). -/
structure BankFlags where
  bank : Nat
  slot : Nat
  flags : BitVec 5
  deriving DecidableEq, Repr

/-- An ATOMSC operation waiting at its bank for the serialising token (R271). -/
structure SerialWait where
  bank : Nat
  task : Nat
  op : Nat
  j : Nat
  deriving DecidableEq, Repr

/-- A queue operation waiting at its control bank (R279 to R281). -/
structure QueueWait where
  line : Nat
  get : Bool
  task : Nat
  op : Nat
  j : Nat
  deadline : Nat
  deriving DecidableEq, Repr

/-- An open landing window (R416). -/
structure LandWindow where
  win : Nat
  atomic : Bool
  base : Nat
  limit : Nat
  key : BitVec 12
  asid : BitVec 16
  deriving DecidableEq, Repr

/-- A segment descriptor (R220). -/
structure Segment where
  base : Nat
  limit : Nat
  key : BitVec 12
  w : Bool
  rd : Bool
  typ : Nat
  deriving DecidableEq, Repr

/-- The fields of a TCB that the part reads at readiness (R312). -/
structure Tcb where
  block : Nat
  ancx : Nat
  ancy : Nat
  mtx : Bool
  priv : Bool
  shortp : Bool
  pmode : Bool
  prio : Nat
  qaff : Nat
  qcnt : Nat
  hoopaff : Nat
  px : Nat
  budget : Nat
  topup : Nat
  progress : Nat
  hiwat : Nat
  ctxres : Nat
  key : BitVec 12
  asid : BitVec 16
  spillsz : Nat
  spill : Nat
  save : Nat
  sched : Nat
  widths : List Nat
  succ : List Nat
  segs : List Segment
  deriving DecidableEq, Repr

/-- One exit of a placed block (R84): the block it names, or `none` for END. -/
structure ExitEntry where
  tact : Tact
  target : Option Nat
  self : Bool
  deriving DecidableEq, Repr

/-- A placed instruction: its word, its literal word (zero where it has none), its site in replica 0 and
the block its CALL literal names. -/
structure Placed where
  word : Word
  lit : Word
  site : Site
  callee : Nat
  deriving DecidableEq, Repr

/-- The front end's placed copy of a block (R81 to R84, R107). `width` is the placement width of R100;
`calls` marks the blocks of R210. -/
structure Block where
  image : Nat
  rho : Nat
  adepth : Nat
  conv : Option Nat
  storeMask : Word
  writeMask : Word
  exits : List ExitEntry
  code : List Placed
  width : Nat
  calls : Bool
  deriving DecidableEq, Repr

/-- A frame word that is not zero I32 (R194). -/
structure FrameWord where
  fw : BitVec 5
  word : Word
  fmt : BitVec 3
  deriving DecidableEq, Repr

/-- A live context of a task (R51, R202, R325). `seq` is its place in the order of allocation (R42);
`parent` is the tag that PARENT restores, whose BLK is the parent instance's; `key` is the block that
keys the child. -/
structure Context where
  ctx : BitVec 12
  seq : Nat
  parent : Option Tag
  key : BitVec 7
  route : Option CallRoute
  frame : List FrameWord
  wid : BitVec 64
  injected : Bool
  deriving DecidableEq, Repr

/-- An iteration window (R187). The iterations at offsets below `reach` have been admitted (R188); the base always is. -/
structure Window where
  blk : BitVec 7
  ctx : BitVec 12
  base : BitVec 12
  reach : Nat
  deriving DecidableEq, Repr

/-- What a complete instance delivers when it commits (R190, R203). -/
inductive HeldExit where
  | exit (e : BitVec 3) (w : Out) (tag : Tag)
  | ret (w : Out)
  deriving DecidableEq, Repr

/-- An uncommitted block instance (R54): what it has counted and what it holds until commit. `seq` is its place in the
order of creation. -/
structure Instance where
  key : InstKey
  seq : Nat
  lsids : Word
  fws : Word
  exited : Bool
  held : Option HeldExit
  writes : List FrameWord
  flags : BitVec 5
  launches : List Nat
  path : BitVec 4
  pdep : BitVec 3
  deriving DecidableEq, Repr

/-- A squash record (R193). `old` says that a sweep which began after the squash is running. -/
structure Squash where
  blk : BitVec 7
  ctx : BitVec 12
  iter : BitVec 12
  old : Bool
  deriving DecidableEq, Repr

/-- The place of a spilled token (R47): its slot in the task's spill area, and the bits of its element's presence filter
that it set when it was written. -/
structure SpillSlot where
  slot : Nat
  site : Site
  bits : List (BitVec 8)
  deriving DecidableEq, Repr

/-- A token waiting in a matching store or in spill (R40, R47), or a word a gathering instruction holds
(R162), with the source it came from (R37). `slot` is the place of a spilled token. `flush` names the control token that
flushes the word (R163). -/
structure Wait where
  site : Site
  tok : Token
  scale : BitVec 8
  held : Bool
  slot : Option SpillSlot
  src : Site
  flush : Option Nat
  deriving DecidableEq, Repr

/-- A presence-filter bit that is set, with its spill count (R47). -/
structure Presence where
  site : Site
  bit : BitVec 8
  count : Nat
  deriving DecidableEq, Repr

/-- A header latch (R174). -/
structure Latch where
  site : Site
  blk : BitVec 7
  inst : BitVec 7
  ctx : BitVec 12
  scale : BitVec 8
  efmt : BitVec 3
  left : Nat
  last : Bool
  deriving DecidableEq, Repr

/-- An accumulation of COMB for one iteration (R215). `run` numbers the arrival that opened it; `slot` is the
spill slot that holds it while it is spilled (R162). -/
structure Accum where
  site : Site
  tag : Tag
  iter : BitVec 12
  acc : Option Gathered
  count : Nat
  run : Nat
  slot : Option SpillSlot
  deriving DecidableEq, Repr

/-- A live issue of LOOPI (R198, R199): the instance it fired in, the trip count, the start, and the
number of iterations issued. -/
structure LoopIssue where
  id : Nat
  firing : Firing
  instr : Instr
  trip : Nat
  start : Word
  issued : Nat
  ended : Bool
  deriving DecidableEq, Repr

/-- Who owns a staged line (R233): an uncommitted instance, an open write stream, or the committed set. -/
inductive StageOwner where
  | inst (k : InstKey)
  | stream (uid : Nat)
  | committed
  deriving DecidableEq, Repr

/-- A staged plain write of up to four bytes of one line, at physical address `pa` (R233, R234), under
the page's key. -/
structure Staged where
  quad : Nat
  owner : StageOwner
  lsid : BitVec 5
  pa : Nat
  bytes : List Byte
  key : BitVec 12
  deriving DecidableEq, Repr

/-- A staged structure or bank operation (R263, R268). -/
inductive StagedWhat where
  | write (w : Word) (fmt : BitVec 3)
  | clear
  | atomic (op : BankOp) (b c : Word)
  deriving DecidableEq, Repr

/-- An operation entry of the staging buffer (R268). `inst` is the staging instance, `order` its place in
commit order once it has committed. -/
structure StagedOp where
  quad : Nat
  inst : InstKey
  lsid : BitVec 5
  pa : Nat
  what : StagedWhat
  order : Option Nat
  deriving DecidableEq, Repr

/-- Where one word of an outstanding operation stands. -/
inductive OpStage where
  /-- Waiting for its instance's order (R229, R230) or for its window base (R257). -/
  | waiting
  /-- Held with a fault until its instance is the base (R232). -/
  | held
  /-- Waiting for a table walk (R227). -/
  | walking
  /-- Ready at its site, its request not sent. -/
  | ready
  /-- Its request has left the site. -/
  | sent
  /-- Waiting on a structure word's reader list (R260). -/
  | reading
  /-- Waiting at a bank, an engine or a queue. -/
  | queued
  | done
  deriving DecidableEq, Repr

/-- One word of an outstanding operation: its address, its descriptor or entry words, its results and
the acknowledgements it still waits for. A word whose instance is gone is `dropped`: what has left its
site completes and is discarded (R238, R257, R341). `asked` says that a line request was made for the word (R225): 1 for a
request to memory, 2 for one that staging served. -/
structure OpWord where
  stage : OpStage
  pa : Nat
  outs : List Out
  data : List Word
  pending : Nat
  fails : List (BitVec 14 × BitVec 8)
  tick : Nat
  dropped : Bool
  asked : Nat
  deriving DecidableEq, Repr

/-- An outstanding operation of a task: a matched set whose words are on their way (R217, R237, R412). -/
structure OpRec where
  id : Nat
  firing : Firing
  instr : Instr
  words : List OpWord
  deriving DecidableEq, Repr

/-- An open stream, or a closed write stream whose lines wait for its opening instance to commit (R239 to
R248). `uid` names it among all streams of its task; `op` is its opener's operation and word. `next` is the
next element, `done` the number staged; `lines` holds the lines fetched last, as they stood (R225, R292);
`buffer` holds waiting data words by iteration, and `outs` the elements of a run not yet emitted. `leave` is
the committed leave it holds, and `asked` says that it waits for leave. -/
structure Stream where
  uid : Nat
  sid : Nat
  tile : Nat
  firing : Firing
  instr : Instr
  write : Bool
  fmt : BitVec 3
  base : Word
  runMax : Nat
  count : Nat
  dims : List (Nat × Word)
  indirect : Bool
  idxoff : Word
  shift : Nat
  remote : Option Nat
  next : Nat
  done : Nat
  buffer : List Gathered
  lines : List (Nat × List Byte)
  outs : List Out
  leave : Nat
  asked : Bool
  op : Nat × Nat
  closed : Bool
  instDone : Bool
  deriving DecidableEq, Repr

/-- A barrier of the barrier unit held by a task (R283): the sink instructions, their arrival bits, and
the completion count. The phase of a task is kept in the same form. -/
structure Barrier where
  ident : Nat
  sinks : List (BitVec 7 × BitVec 7)
  arrived : List (BitVec 7 × BitVec 7)
  count : BitVec 32
  deriving DecidableEq, Repr

/-- A receiver of a task's landing-window rows (R306): its node, and whether it still owes an
acknowledgement of a commit or abort token. -/
structure Receiver where
  node : BitVec 14
  owed : Bool
  deriving DecidableEq, Repr

/-- The life of a task on its hoop: its start (R322), its commit (R300), its abort and parking (R339 to R343), and a
save (R345). A task in `recording` has written its reports, and its fault record waits for the fault queue. -/
inductive Phase where
  | fetching | resources | levelling | checking | starting | running
  | ending | draining | tokens
  | aborting | parking | recording | kept
  | halting | saved
  deriving DecidableEq, Repr

/-- How a master is frozen (R335, R336). -/
inductive Freeze where
  | none | byFreeze | byViolation
  deriving DecidableEq, Repr

/-- The cause that ends a task (R338) with its detail words (R483) and the tick it was raised in (R340). -/
structure Cause where
  code : BitVec 8
  d0 : Word
  d1 : Word
  d2 : Word
  d3 : Word
  skind : BitVec 4
  src : BitVec 12
  tick : BitVec 64
  deriving DecidableEq, Repr

/-- What the machine does next: fire a complete matched set, or an event of the part. -/
inductive Item where
  | firing (g : Firing)
  | event (e : Instr)
  deriving DecidableEq, Repr

/-- What a TACK took (R371): its word, the at-once words that had left their sites, the number of committed staged
writes still to drain, and the commit order below which it drains staged operations. -/
structure Tacking where
  op : Nat
  j : Nat
  waits : List (Nat × Nat)
  lines : Nat
  cut : Nat
  deriving DecidableEq, Repr

/-- What a saved task keeps besides its own record (R345): the quadrants it was on, its contexts and barriers, the
work that was under way, and the fill voltage in force of each of its domains (R381). -/
structure Saved where
  quads : List Nat
  fill : List (BitVec 10)
  contexts : List Context
  barriers : List Barrier
  items : List Item
  deriving DecidableEq, Repr

/-- A task on a hoop, or a saved task. `images` holds the block images as the front end fetched them, each with its
virtual address, in the order of R106. -/
structure Task where
  id : Nat
  tcbVa : Nat
  tcb : Tcb
  tower : Nat
  hoop : Nat
  quads : List Nat
  phase : Phase
  frozen : Freeze
  readyTick : Nat
  placedAt : Nat
  images : List (Nat × List Word)
  blocks : List Block
  /-- The account (R354): strokes in store mode, account units in schedule mode. -/
  account : Nat
  schedule : Bool
  delivered : Nat
  returned : Nat
  budget : Nat
  packets : Nat
  allow : Nat
  granted : Nat
  marks : Nat
  reissue : Bool
  resume : Word
  tacks : Word
  resumeIn : Word
  tacksIn : Word
  shortf : Word
  /-- The slots of the engine port that the task has taken (R105, R322). -/
  slots : Nat
  contexts : List Context
  reserve : Nat
  nextSeq : Nat
  windows : List Window
  insts : List Instance
  squashes : List Squash
  waiting : List Wait
  filters : List Presence
  latches : List Latch
  accums : List Accum
  loops : List LoopIssue
  staged : List Staged
  stagedOps : List StagedOp
  commits : Nat
  ops : List OpRec
  nextOp : Nat
  streams : List Stream
  barriers : List Barrier
  phases : Barrier
  flags : BitVec 5
  banks : List Nat
  launches : List Nat
  receivers : List Receiver
  rowsSent : Bool
  quiet : Nat
  entryNext : Nat
  ended : Bool
  cause : Option Cause
  tacking : Option Tacking
  /-- The command whose failures the record of F_REMOTE lists, and the receivers that have failed so far (R426). -/
  failing : Option (Nat × Nat × List (BitVec 14 × BitVec 8))
  sparse : Option Nat
  saved : Option Saved
  deriving DecidableEq, Repr

/-- A ready task of a scheduler (R318): its notice, its keys of order, and what a re-issue or a save
carries (R345, R367). `checked` is its TCB once read (R313). -/
structure Ready where
  tcbVa : Nat
  asid : BitVec 16
  tick : Nat
  seq : Nat
  checked : Option Tcb
  budget : Option Nat
  resume : Word
  tacks : Word
  saved : Option Nat
  deriving DecidableEq, Repr

/-- A quadrant reserved by pre-emption for the ready task numbered `seq` (R348). -/
structure Reserved where
  hoop : Nat
  quad : Nat
  seq : Nat
  deriving DecidableEq, Repr

/-- An engine of a tower (R409): the commands waiting by hoop, those running, and its freeze (R335). -/
structure Engine where
  queue : List Reader
  running : List Reader
  nextHoop : Nat
  frozen : Freeze
  deriving DecidableEq, Repr

/-- Words of one line that an engine has sent to their memory and that have not performed there (R310, R311), under the
page's key. `bad` says that they carry a code that does not match (R431). The write counts as performed for the agents
within `scope`, which find it there (R293). -/
structure OutLine where
  key : BitVec 12
  words : List (Nat × Word)
  bad : Bool
  scope : Option Nat
  deriving DecidableEq, Repr

/-- A command that writes (R310, R311): the words, or the rows, of its result that have not left the engine, those of them
that come from a line whose code failed, the lines that are on their way, whether its completion token has been
emitted, and the members of a collective whose commit tokens have not come (R425). -/
structure EngineWork where
  task : Nat
  op : Nat
  j : Nat
  todo : List Nat
  bad : List Nat
  lines : List OutLine
  told : Bool
  members : List Sender
  deriving DecidableEq, Repr

/-- The states of an entry of the join table other than FREE (R447). -/
inductive EpisodeState where
  | open | closed | expired | scan | held
  deriving DecidableEq, Repr

/-- A live entry of the join table (R436, R442 to R450). `bound` is the task and the context it is bound to (R441),
`turn` its place among the scans that have completed, `judged` says that its turn has come and it was not stale, and `adv` and `ret` what its scan formed and its release has not
yet appended. -/
structure Episode where
  entry : Nat
  ident : BitVec 48
  st : EpisodeState
  version : Word
  steps : Nat
  boot : Word
  fin : Bool
  seq : BitVec 32
  deadline : Nat
  adv : List Word
  ret : List Word
  bound : Option (Nat × BitVec 12)
  turn : Nat
  judged : Bool
  deriving DecidableEq, Repr

/-- A tower's join engine (R435 to R452). `counters` holds JSTAT's selectors 0x01 to 0x0B. -/
structure JoinEngine where
  asid : BitVec 16
  logl : BitVec 4
  en : Bool
  base : BitVec 64
  configured : Bool
  gamma : Word
  lambda : Word
  gl : Word
  tout : Nat
  maxlag : Nat
  ready : Bool
  truncate : Bool
  lqva : BitVec 64
  oqva : BitVec 64
  lv : Word
  nextSeq : BitVec 32
  unresolved : List (BitVec 32)
  counters : List (BitVec 32)
  flags : BitVec 5
  episodes : List Episode
  deriving DecidableEq, Repr

/-- PK_FQBASE, PK_FQCTL, PK_FQHEAD and PK_FQTAIL, and their counterparts of the error log (R342, R485).
`lost` is FULLS or LOST. -/
structure Ring where
  base : BitVec 64
  lost : BitVec 16
  logn : BitVec 5
  head : BitVec 32
  tail : BitVec 32
  deriving DecidableEq, Repr

/-- A tower (R16, R17, R318 to R321, R342). `held` is the ready task that no other is placed before (R320). `frozenBy` and the engines are in the order of R334: copy,
gather, collective, reward join. -/
structure Tower where
  ageu : BitVec 8
  pwaitu : BitVec 8
  holdu : BitVec 8
  pren : Bool
  ready : List Ready
  nextSeq : Nat
  held : Option Nat
  fq : Ring
  engines : List Engine
  join : JoinEngine
  poolUsed : Nat
  deriving DecidableEq, Repr

/-- The states of a meter (R360). -/
inductive MeterState where
  | idle | fill | feed | drain | stop | held
  deriving DecidableEq, Repr

/-- A metered domain with its QM_ registers (R351, R360, R361, R379, R380, R467) and its leave (R376,
R377). `moving` is the goal of a move in progress, and `rail` the voltage of the rail in schedule mode; `agentTick` is the
tick of a system agent's last write of the target (R459); `leaves` lists the operations waiting for leave, in
arrival order, with their steps. The store stands between `low` and `vmv`, and its charge does not exceed the `fed` strokes
that its pump has brought; `owed` are the strokes of its fill still to come (R356). `kept` says that the pool holds the
store (R343). The rest is the bobbin's: the counters of its last snapshot, what the domain fired and drew between the last
two, whether a task ran in it then and has run since (R459, R460), and whether a bound holds the target down (R461). -/
structure Domain where
  pin : Bool
  mode : Bool
  pend : Bool
  cur : BitVec 10
  mv : BitVec 10
  moving : Option (BitVec 10)
  agentTick : Option (BitVec 64)
  st : MeterState
  nseg : Nat
  vmv : BitVec 10
  low : BitVec 10
  fed : Nat
  owed : Nat
  kept : Bool
  rail : BitVec 10
  ceil : Nat
  committed : Nat
  lastStart : Nat
  leaves : List (Reader × Nat)
  schedule : Bool
  deliv : BitVec 64
  retn : BitVec 64
  fire : BitVec 64
  fireSeen : BitVec 64
  delivSeen : BitVec 64
  retnSeen : BitVec 64
  fired : BitVec 64
  drew : BitVec 64
  ranLast : Bool
  ran : Bool
  bounded : Bool
  deriving DecidableEq, Repr

/-- A page of a translation cache or micro-TLB (R227). `tile` is the unit whose micro-TLB holds it, and
`none` the hoop's cache. -/
structure Translation where
  tile : Option Nat
  asid : BitVec 16
  page : Nat
  entry : BitVec 64
  large : Bool
  deriving DecidableEq, Repr

/-- The states of an operand slot (R389). -/
inductive SlotState where
  | free | held | loading | ready
  deriving DecidableEq, Repr

/-- An operand slot (R388, R389). Its bytes are memory at the operand-memory region of the hoop (R408). -/
structure Slot where
  st : SlotState
  fmt : BitVec 3
  mask : BitVec 128
  deriving DecidableEq, Repr

/-- An accumulator word that is not +0 (R386). -/
structure AccWord where
  acc : Nat
  row : Nat
  col : Nat
  word : Word
  deriving DecidableEq, Repr

/-- An entry of a hoop's range scoreboard (R250). -/
structure Range where
  lo : Nat
  hi : Nat
  task : Nat
  op : Nat
  j : Nat
  deriving DecidableEq, Repr

/-- A circuit between two scratchpads (R245). -/
structure Circuit where
  source : Nat
  dest : Nat
  task : Nat
  uid : Nat
  deriving DecidableEq, Repr

/-- A hoop (R11). `retired` lists contexts out of service and not yet free, each with the task it served;
`sweep` holds those that the sweep in progress will free (R53, R205). -/
structure Hoop where
  quiet : BitVec 32
  stray : BitVec 64
  domains : List Domain
  retired : List (BitVec 12 × Nat)
  sweep : Option (List (BitVec 12 × Nat))
  codebooks : List (List (BitVec 16))
  slots : List Slot
  accs : List AccWord
  tlb : List Translation
  ranges : List Range
  deriving DecidableEq, Repr

/-- PK_LINKp (R482), the successive failures of its current flit, and the number of messages for its partner in the outbox
that have been acknowledged (R430). -/
structure Link where
  retry : BitVec 32
  downs : BitVec 16
  peer : BitVec 14
  st : BitVec 2
  fails : Nat
  acked : Nat
  deriving DecidableEq, Repr

/-- A thermal diode's register BB_TEMPn (R458). -/
structure Sensor where
  val : Bool
  code : BitVec 12
  t16 : BitVec 12
  deriving DecidableEq, Repr

/-- The bobbin's registers and its loaded firmware (R464, R467, R473), whose dynamic charge per firing `qf` is in fC (R460).
`lastBeat` and `stale` are the watchdog's; `acted` says that a trip has acted since the last control period (R464). A control
period that has begun is `due`: `temps` and `seen` are its snapshot of the diodes and the number of its measurements, and
`writes` the targets it has chosen and not yet written, by domain (R459). -/
structure Bobbin where
  en : Bool
  policy : Bool
  tjt : BitVec 8
  capw : BitVec 12
  wdog : Bool
  trip : Bool
  tbnd : Bool
  pbnd : Bool
  pwr : BitVec 12
  beat : BitVec 16
  pumpmv : BitVec 16
  lastBeat : BitVec 16
  stale : Nat
  acted : Bool
  code : List Byte
  loaded : Bool
  qf : Nat
  due : Bool
  temps : List (BitVec 12)
  seen : Nat
  writes : Option (List (Nat × BitVec 10))
  deriving DecidableEq, Repr

/-- How far bring-up has come (R472): the last step that is complete. -/
inductive BringUp where
  | reset | firmware | trained | running
  deriving DecidableEq, Repr

/-- A message that leaves the package, for the outside world to take (R19, R306, R429, R474). -/
inductive OutMsg where
  | row (r : Row)
  | atomic (m : RemoteAtomic)
  | contribution (node : BitVec 14) (c : Contribution)
  | reward (node : BitVec 14) (m : RewardMsg)
  | commitToken (node : BitVec 14) (s : Sender)
  | abortToken (node : BitVec 14) (s : Sender)
  | tokenAck (s : Sender)
  | landingAck (s : Sender) (op j : Nat)
  | failureAck (s : Sender) (op j : Nat) (reason : BitVec 8)
  | atomicReply (s : Sender) (op j : Nat) (value : Word) (flags : BitVec 5)
  | egress (node : BitVec 14) (chan : Nat) (tcb : BitVec 64)
  | readReply (agent : BitVec 14) (pa : Nat) (bytes : List Byte) (poisoned : Bool)
  | attestation (report certificate : List Byte)
  | firmwareRefused
  deriving DecidableEq, Repr

/-- The state of the package. -/
structure State where
  /-- The model's own: the work that is under way, in the order it came up. -/
  agenda : List Item
  /-- The model's own: which item of `agenda` is tried next when `choices` is empty. -/
  cursor : Nat
  /-- The model's own: the order in which concurrent work takes effect, and the picks the manual leaves
  open. -/
  choices : List Nat
  /-- The model's own: the item being performed and its place in `agenda`. -/
  cur : Option (Item × Nat)
  /-- The model's own: a counter that makes each use of a free value fresh. -/
  fresh : Nat
  time : BitVec 64
  mem : Memory
  words : List WordState
  lineKeys : List LineKey
  keyGens : List (BitVec 12 × Nat)
  poison : List Nat
  locks : List Lock
  bankFlags : List BankFlags
  serial : List SerialWait
  serialBank : Nat
  queueWaits : List QueueWait
  landWindows : List LandWindow
  circuits : List Circuit
  tasks : List Task
  nextTask : Nat
  towers : List Tower
  hoops : List Hoop
  reserved : List Reserved
  frozenNodes : List (BitVec 14 × Freeze)
  collectives : List Contribution
  /-- The commands that write their results (R310). -/
  works : List EngineWork
  links : List Link
  sensors : List Sensor
  trips : List Nat
  /-- The DRAM dies (8 × tower + die) that are refreshed with the 16 ms window (R466). -/
  hotDies : List Nat
  bobbin : Bobbin
  bringUp : BringUp
  pumpsStalled : Bool
  capReached : Bool
  /-- The strokes that the pumps have delivered in this window of the feed governor (R462). -/
  windowFeed : Nat
  verif : Bool
  node : BitVec 14
  run : Bool
  rstcause : BitVec 3
  refusedNext : Bool
  pool : BitVec 64
  thrw : BitVec 32
  feedcap : BitVec 12
  asbase : BitVec 30
  tlbAsid : BitVec 16
  tlbVa : BitVec 41
  tlbMode : BitVec 2
  tlbBusy : Bool
  el : Ring
  incfg : List (BitVec 64)
  egcfg : List (BitVec 64)
  outbox : List OutMsg
  deriving DecidableEq, Repr

/-- A ring of records after reset (R342, R485). -/
def Ring.reset : Ring := ⟨0, 0, 4, 0, 0⟩

/-- A metered domain after reset (R361, R379, R380, R467). -/
def Domain.reset : Domain where
  pin := false
  mode := false
  pend := false
  cur := 0x320
  mv := 0x320
  moving := none
  agentTick := none
  st := .idle
  nseg := 0
  vmv := 0
  low := 0
  fed := 0
  owed := 0
  kept := false
  rail := 0x320
  ceil := 0
  committed := 0
  lastStart := 0
  leaves := []
  schedule := false
  deliv := 0
  retn := 0
  fire := 0
  fireSeen := 0
  delivSeen := 0
  retnSeen := 0
  fired := 0
  drew := 0
  ranLast := false
  ran := false
  bounded := false

/-- A hoop after reset (R218, R387, R471). -/
def Hoop.reset : Hoop where
  quiet := 0x186A0
  stray := 0
  domains := List.replicate 5 Domain.reset
  retired := []
  sweep := none
  codebooks := List.replicate 16 (List.replicate 16 0)
  slots := List.replicate 64 ⟨.free, 0, 0⟩
  accs := []
  tlb := []
  ranges := []

/-- A join engine after reset (R435). The parameters JCFG sets have no reset value of the manual. -/
def JoinEngine.reset : JoinEngine where
  asid := 0
  logl := 0xC
  en := false
  base := 0
  configured := false
  gamma := 0
  lambda := 0
  gl := 0
  tout := 0
  maxlag := 0
  ready := false
  truncate := false
  lqva := 0
  oqva := 0
  lv := 0
  nextSeq := 0
  unresolved := []
  counters := List.replicate 11 0
  flags := 0
  episodes := []

/-- A tower after reset (R321, R342). -/
def Tower.reset : Tower where
  ageu := 0x10
  pwaitu := 0x04
  holdu := 0x40
  pren := false
  ready := []
  nextSeq := 0
  held := none
  fq := Ring.reset
  engines := List.replicate 4 ⟨[], [], 0, .none⟩
  join := JoinEngine.reset
  poolUsed := 0

/-- The bobbin after reset (R464, R467). -/
def Bobbin.reset : Bobbin where
  en := true
  policy := false
  tjt := 0x5F
  capw := 0xC80
  wdog := false
  trip := false
  tbnd := false
  pbnd := false
  pwr := 0
  beat := 0
  pumpmv := 0
  lastBeat := 0
  stale := 0
  acted := false
  code := []
  loaded := false
  qf := 3500
  due := false
  temps := []
  seen := 0
  writes := none

/-- The package after power-on reset, before bring-up (R472): no task, nothing in memory, every register
at its reset value. -/
def State.reset : State where
  agenda := []
  cursor := 0
  choices := []
  cur := none
  fresh := 0
  time := 0
  mem := []
  words := []
  lineKeys := []
  keyGens := []
  poison := []
  locks := []
  bankFlags := []
  serial := []
  serialBank := 0
  queueWaits := []
  landWindows := []
  circuits := []
  tasks := []
  nextTask := 1
  towers := List.replicate 4 Tower.reset
  hoops := List.replicate 64 Hoop.reset
  reserved := []
  frozenNodes := []
  collectives := []
  works := []
  links := List.replicate 18 ⟨0, 0, 0x3FFF, 0, 0, 0⟩
  sensors := List.replicate 128 ⟨false, 0, 0⟩
  trips := []
  hotDies := []
  bobbin := Bobbin.reset
  bringUp := .reset
  pumpsStalled := false
  capReached := false
  windowFeed := 0
  verif := false
  node := 0x3FFF
  run := false
  rstcause := 1
  refusedNext := false
  pool := 0
  thrw := 0
  feedcap := 0xAF0
  asbase := 0
  tlbAsid := 0
  tlbVa := 0
  tlbMode := 0
  tlbBusy := false
  el := Ring.reset
  incfg := List.replicate 16 0
  egcfg := List.replicate 16 0
  outbox := []

end Sys2Proof.Machine
end

