-- ==== Sys2Proof/Machine/Memory.lean ====
section
/-!
DEFINITION. Memory: the one copy of every byte (R291), the states of structure words (R258, R264), the
physical map (R469), line codes and keys (R431, R475), and the walk of the page tables (R476, R477).
-/

namespace Sys2Proof.Machine

/-- Apply `f` to the entries of a list that satisfy `p`. -/
def modifyWhere {α : Type} (p : α → Bool) (f : α → α) (l : List α) : List α :=
  l.map fun x => if p x then f x else x

/-- The value a memory holds at an address. -/
def Memory.read (m : Memory) (a : Nat) : Byte :=
  match m.find? fun c => c.1 == a with
  | some c => c.2
  | none => Memory.unlisted

/-- Write one byte, keeping the canonical form. -/
def Memory.write (m : Memory) (a : Nat) (b : Byte) : Memory :=
  match m with
  | [] => if b = Memory.unlisted then [] else [(a, b)]
  | c :: m' =>
    if c.1 < a then c :: Memory.write m' a b
    else if c.1 = a then (if b = Memory.unlisted then m' else (a, b) :: m')
    else if b = Memory.unlisted then c :: m' else (a, b) :: c :: m'

/-- Write bytes at successive addresses. -/
def Memory.writeBytes (m : Memory) (a : Nat) : List Byte → Memory
  | [] => m
  | b :: bs => Memory.writeBytes (m.write a b) (a + 1) bs

/-- The bytes at `n` successive addresses. -/
def Memory.readBytes (m : Memory) (a : Nat) : Nat → List Byte
  | 0 => []
  | n + 1 => m.read a :: Memory.readBytes m (a + 1) n

/-- A little-endian number of bytes (R3). -/
def natOfBytes : List Byte → Nat
  | [] => 0
  | b :: bs => b.toNat + 256 * natOfBytes bs

/-- The `n` little-endian bytes of a number (R3). -/
def bytesOfNat (v : Nat) : Nat → List Byte
  | 0 => []
  | n + 1 => BitVec.ofNat 8 v :: bytesOfNat (v / 256) n

def Memory.readWord (m : Memory) (a : Nat) : Word := BitVec.ofNat 32 (natOfBytes (m.readBytes a 4))
def Memory.writeWord (m : Memory) (a : Nat) (w : Word) : Memory := m.writeBytes a (bytesOfNat w.toNat 4)

/-- The `n` successive words from an address. -/
def Memory.readWords (m : Memory) (a : Nat) : Nat → List Word
  | 0 => []
  | n + 1 => m.readWord a :: Memory.readWords m (a + 4) n

/-! ### The physical map (R469) -/

/-- The regions of the package's physical addresses, and host memory. -/
inductive Region where
  | dram (tower : Nat)
  | shared (tower bank : Nat)
  | scratch (hoop : Nat)
  | operand (hoop : Nat)
  | registers
  | host (node : Nat)
  | none
  deriving DecidableEq, Repr

def hostBase (node : Nat) : Nat := (node + 1) * 2 ^ 49
def dramBase (k : Nat) : Nat := 0xC00000000 * k
def sharedBase (k b : Nat) : Nat := 0x4000000000 + 0x4000000 * k + 0x80000 * b
def scratchBase (h : Nat) : Nat := 0x4100000000 + 0x800000 * h
def operandBase (h : Nat) : Nat := 0x4200000000 + 0x200000 * h
def registerBase : Nat := 0x8000000000

/-- The region an address lies in. -/
def regionOf (a : Nat) : Region :=
  if 2 ^ 49 ≤ a then .host (a / 2 ^ 49 - 1)
  else if a < 4 * 0xC00000000 then .dram (a / 0xC00000000)
  else if 0x4000000000 ≤ a ∧ a < 0x4010000000 then
    .shared ((a - 0x4000000000) / 0x4000000) ((a - 0x4000000000) / 0x80000 % 128)
  else if 0x4100000000 ≤ a ∧ a < 0x4120000000 then .scratch ((a - 0x4100000000) / 0x800000)
  else if 0x4200000000 ≤ a ∧ a < 0x4208000000 then .operand ((a - 0x4200000000) / 0x200000)
  else if 0x8000000000 ≤ a ∧ a < 0x8000800000 then .registers
  else .none

def Region.isDram : Region → Bool
  | .dram _ => true
  | _ => false

def Region.isShared : Region → Bool
  | .shared _ _ => true
  | _ => false

/-- DRAM and shared memory carry structure states (R258). -/
def Region.structured (r : Region) : Bool := r.isDram || r.isShared

/-- The package-wide number of the bank that holds a shared-memory address (R271, R272). -/
def bankOf (a : Nat) : Nat :=
  match regionOf a with
  | .shared t b => 128 * t + b
  | _ => 0

/-- The classes of a line request (R225, R362). -/
inductive LineClass where
  | scratch | shared | dram
  deriving DecidableEq, Repr

def LineClass.units : LineClass → Nat
  | .scratch => 2560
  | .shared => 10240
  | .dram => 40960

/-- The class of the memory at an address (R222, R382). -/
def lineClassOf (a : Nat) : LineClass :=
  match regionOf a with
  | .scratch _ => .scratch
  | .shared _ _ => .shared
  | _ => .dram

def lineOf (a : Nat) : Nat := a - a % 64
def wordOf (a : Nat) : Nat := a - a % 4

/-! ### Structure words (R258 to R264) -/

/-- The state of the structure word at an address; `none` is empty with format I32. -/
def State.wordAt (s : State) (a : Nat) : Option WordState := s.words.find? fun w => w.addr == a

/-- Put a structure word's state, in rising order of address. -/
def putWord (w : WordState) : List WordState → List WordState
  | [] => [w]
  | v :: vs => if v.addr < w.addr then v :: putWord w vs else if v.addr = w.addr then w :: vs else w :: v :: vs

def State.setWord (s : State) (w : WordState) : State := { s with words := putWord w s.words }

/-- Make a structure word empty with format I32. -/
def State.emptyWord (s : State) (a : Nat) : State := { s with words := s.words.filter fun w => w.addr != a }

/-- Set a structure word full with a format, keeping no readers. -/
def State.fullWord (s : State) (a : Nat) (fmt : BitVec 3) : State :=
  s.setWord ⟨a, .full, fmt, none, 0, []⟩

/-- Write the 32-bit field of a structure word. -/
def State.setField (s : State) (a : Nat) (w : Word) : State := { s with mem := s.mem.writeWord a w }

/-- Whether a write by any other path than a structure operation is dropped at the word (R264). -/
def State.wordRefusesWrite (s : State) (a : Nat) : Bool :=
  match s.wordAt a with
  | some w => w.code != .full
  | none => false

/-! ### Line codes and keys (R431, R475) -/

def State.keyGen (s : State) (key : BitVec 12) : Nat :=
  match s.keyGens.find? fun k => k.1 == key with
  | some k => k.2
  | none => 0

/-- The line at an address can be read under a key: it was written under it, and the key has not been replaced since. -/
def State.lineKeyed (s : State) (a : Nat) (key : BitVec 12) : Bool :=
  if (regionOf a).isDram then
    match s.lineKeys.find? fun k => k.line == lineOf a with
    | some k => k.key == key && k.gen == s.keyGen key
    | none => key == 0 && s.keyGen 0 == 0
  else true

/-- Whether the line at an address passes its CRC check when it is read under a key. -/
def State.lineGood (s : State) (a : Nat) (key : BitVec 12) : Bool := !s.poison.contains (lineOf a) && s.lineKeyed a key

/-- Record that a whole line was written under a key: its code is good again. -/
def State.markLine (s : State) (a : Nat) (key : BitVec 12) : State :=
  let l := lineOf a
  let g := s.keyGen key
  { s with
    poison := s.poison.filter fun x => x != l
    lineKeys :=
      if (regionOf a).isDram then
        let rest := s.lineKeys.filter fun k => k.line != l
        if key = 0 ∧ g = 0 then rest else ⟨l, key, g⟩ :: rest
      else s.lineKeys }

/-! ### The error log (R485) -/

/-- The record of an error-log entry. -/
def errorEntry (time : BitVec 64) (event : BitVec 8) (hoop : Nat) (info : Word) (addr : Nat) : List Byte :=
  bytesOfNat (event.toNat + 256 * (hoop % 64)) 4 ++ bytesOfNat info.toNat 4 ++ bytesOfNat addr 8 ++
    bytesOfNat time.toNat 8 ++ bytesOfNat 0 8

def Ring.size (r : Ring) : Nat := 2 ^ r.logn.toNat
def Ring.full (r : Ring) : Bool := decide (r.size ≤ (r.tail - r.head).toNat)
def Ring.countLost (r : Ring) : Ring := { r with lost := if r.lost = 0xFFFF then r.lost else r.lost + 1 }

/-- Write plain bytes of a ring record: words found empty or full become full (R485). -/
def State.writeRecord (s : State) (a : Nat) (bs : List Byte) : State :=
  let words := (List.range (bs.length / 4)).map fun k => a + 4 * k
  let s1 := { s with mem := s.mem.writeBytes a bs }
  if (regionOf a).structured then words.foldl (fun t w => t.fullWord w 0) s1 else s1

/-- A part of a line is merged into it unlogged: a line whose code fails is poisoned (R431, R485). -/
def State.mergeQuietly (s : State) (a : Nat) : State :=
  if s.lineGood a 0 || s.poison.contains (lineOf a) then s else { s with poison := lineOf a :: s.poison }

/-- Log an event that ends no task (R485). -/
def State.logEvent (s : State) (event : BitVec 8) (hoop : Nat) (info : Word) (addr : Nat) : State :=
  let r := s.el
  let a := r.base.toNat + 32 * (r.tail.toNat % r.size)
  let words := (List.range 8).map fun k => a + 4 * k
  if r.full || (regionOf a == .none) || (regionOf a == .registers) || (regionOf a matches .operand _) ||
      decide (2 ^ 49 ≤ a) || words.any s.wordRefusesWrite then
    { s with el := r.countLost }
  else
    { ((s.mergeQuietly a).writeRecord a (errorEntry s.time event hoop info addr)) with el := { r with tail := r.tail + 1 } }

/-! ### Plain writes (R264, R292, R431) -/

/-- A line is poisoned, and the event logged (R431, R481). -/
def State.poisonLine (s : State) (a : Nat) : State :=
  ({ s with poison := lineOf a :: s.poison }).logEvent 0x06 0x3F 0 (lineOf a)

/-- A partial write checks the old line's code before it merges; a line that fails is poisoned and the
event logged (R431). -/
def State.checkMerge (s : State) (a : Nat) (key : BitVec 12) (n : Nat) : State :=
  if n = 64 then s.markLine a key
  else if s.lineGood a key then s
  else if s.poison.contains (lineOf a) then s
  else s.poisonLine a

/-- The bytes of a write that fall in one structure word. -/
structure WordWrite where
  addr : Nat
  bytes : List Byte
  deriving DecidableEq, Repr

/-- Cut a write at word boundaries. -/
def wordWrites (a : Nat) : List Byte → List WordWrite
  | [] => []
  | b :: bs =>
    match wordWrites (a + 1) bs with
    | [] => [⟨a, [b]⟩]
    | w :: ws => if (a + 1) % 4 = 0 then ⟨a, [b]⟩ :: w :: ws else ⟨a, b :: w.bytes⟩ :: ws

/-- Who the error log says a dropped write came from (R485): the hoop, and INFO. -/
structure Writer where
  hoop : Nat
  info : Word
  deriving DecidableEq, Repr

/-- A write by the part itself. -/
def partWriter : Writer := ⟨0x3F, 0xFFFFFFFF⟩
/-- A write by the task that holds a task slot (R269). -/
def slotWriter (slot : Nat) : Writer := ⟨slot / 4, BitVec.ofNat 32 slot⟩

/-- The part of a plain write that falls in one structure word: the word becomes full with format I32, or, deferred or
provisional, keeps its state and drops the write, which is logged (R264). -/
def State.plainWord (who : Writer) (s : State) (w : WordWrite) : State :=
  let wa := wordOf w.addr
  if s.wordRefusesWrite wa then s.logEvent 0x01 who.hoop who.info wa
  else { (s.fullWord wa 0) with mem := s.mem.writeBytes w.addr w.bytes }

/-- A plain write that performs at its memory (R264, R292). `who` is the writer that the log names. -/
def State.plainWrite (s : State) (a : Nat) (bs : List Byte) (key : BitVec 12) (who : Writer) : State :=
  if (regionOf a).structured then (wordWrites a bs).foldl (State.plainWord who) (s.checkMerge a key bs.length)
  else { (if bs.length = 64 then s.markLine a key else s) with mem := s.mem.writeBytes a bs }

/-! ### The page tables (R476, R477) -/

/-- A 64-bit entry read by a walker. -/
def State.readEntry (s : State) (a : Nat) : BitVec 64 := BitVec.ofNat 64 (natOfBytes (s.mem.readBytes a 8))

def entryPresent (e : BitVec 64) : Bool := e.getLsbD 0
def entryLeaf (e : BitVec 64) : Bool := e.getLsbD 1
def entryAddr (e : BitVec 64) : Nat := (e.extractLsb' 5 33).toNat * 2 ^ 16
def entryKey (e : BitVec 64) : BitVec 12 := e.extractLsb' 52 12
def entryNode (e : BitVec 64) : Nat := (e.extractLsb' 38 14).toNat
def entryHost (e : BitVec 64) : Bool := e.getLsbD 4
def entryWrites (e : BitVec 64) : Bool := e.getLsbD 3
def entryReads (e : BitVec 64) : Bool := e.getLsbD 2

/-- A valid non-leaf entry carries only P, L = 0 and ADDR. -/
def entryTable (e : BitVec 64) : Bool :=
  e == (e &&& 0x3FFFFFFFE0#64) ||| 1#64

/-- The index of a virtual address at a level. -/
def vaIndex (va : Nat) : Nat → Nat
  | 0 => va / 2 ^ 47 % 1024
  | 1 => va / 2 ^ 36 % 2048
  | 2 => va / 2 ^ 25 % 2048
  | _ => va / 2 ^ 16 % 512

/-- Whether a leaf at level 2 or 3 maps a page: its address is aligned to its size, names DRAM, shared
memory or scratchpad on a package page, and its reserved bits are zero. -/
def leafValid (e : BitVec 64) (level : Nat) : Bool :=
  (level == 3 || (level == 2 && e.extractLsb' 5 9 == 0)) &&
    (if entryHost e then true
     else entryNode e == 0 && e.extractLsb' 28 10 == 0 &&
       (match regionOf (entryAddr e) with
        | .dram _ => true
        | .shared _ _ => true
        | .scratch _ => true
        | _ => false))

/-- The walk from a table at a level, `fuel` levels deep (R476). -/
def State.walkFrom (s : State) (va table level : Nat) : Nat → Option (BitVec 64 × Nat)
  | 0 => none
  | fuel + 1 =>
    let e := s.readEntry (table + 8 * vaIndex va level)
    if !entryPresent e then none
    else if entryLeaf e then (if leafValid e level then some (e, level) else none)
    else if level < 3 && entryTable e then s.walkFrom va (entryAddr e) (level + 1) fuel
    else none

/-- The physical base of the root entries (R476). -/
def State.rootBase (s : State) : Nat := s.asbase.toNat * 2 ^ 19

/-- The walk of a virtual address in an address space: the leaf and its level, or `none` for F_XLATE. -/
def State.walk (s : State) (asid : BitVec 16) (va : Nat) : Option (BitVec 64 × Nat) :=
  let root := s.readEntry (s.rootBase + 8 * asid.toNat)
  if entryTable root && !entryLeaf root then s.walkFrom va (entryAddr root) 0 4 else none

/-- The physical address a leaf gives: host addresses are offset to their host's memory. -/
def leafPa (e : BitVec 64) (large : Bool) (va : Nat) : Nat :=
  let size := if large then 2 ^ 25 else 2 ^ 16
  let pa := entryAddr e + va % size
  if entryHost e then hostBase (entryNode e) + pa else pa

/-- What a checked translation answers. -/
inductive Translated where
  | ok (pa : Nat)
  | miss
  | xlate
  | prot
  deriving DecidableEq, Repr

/-- Check 6 of R223 on a leaf. -/
def leafPermits (e : BitVec 64) (write : Bool) (key : BitVec 12) : Bool :=
  (if write then entryWrites e else entryReads e) && entryKey e == key

/-- A translation by the part itself, with a walk and no cache: reads of TCBs and block images, report
writes, descriptors, the join engine's store and landing windows. -/
def State.translate (s : State) (asid : BitVec 16) (va : Nat) (write : Bool) (key : Option (BitVec 12)) :
    Translated :=
  match s.walk asid va with
  | none => .xlate
  | some (e, level) =>
    if leafPermits e write (key.getD (entryKey e)) then .ok (leafPa e (level == 2) va) else .prot

/-- The key of the page that maps an address, zero where none does. -/
def State.pageKey (s : State) (asid : BitVec 16) (va : Nat) : BitVec 12 :=
  match s.walk asid va with
  | some (e, _) => entryKey e
  | none => 0

/-- Read `n` bytes of an address space. -/
def State.readVa (s : State) (asid : BitVec 16) (va : Nat) : Nat → Except Translated (List Byte)
  | 0 => .ok []
  | n + 1 =>
    match s.translate asid va false none with
    | .ok pa =>
      match s.readVa asid (va + 1) n with
      | .ok bs => .ok (s.mem.read pa :: bs)
      | .error e => .error e
    | e => .error e

/-- Write bytes of an address space as plain writes. -/
def State.writeVa (s : State) (asid : BitVec 16) (va : Nat) (bs : List Byte) : Except Translated State :=
  match s.translate asid va true none with
  | .ok pa => .ok (s.plainWrite pa bs (s.pageKey asid va) partWriter)
  | e => .error e

end Sys2Proof.Machine
end

