-- ==== Sys2Proof/Machine/Literals.lean ====
section
/-!
DEFINITION. The control literals and control words of the instructions, by field, and the word-local
checks of the front end (checks 5 to 8 of R108 as far as one instruction decides them).
-/

namespace Sys2Proof

/-- Bits [hi:lo] of a word as a number. -/
def bits (w : Word) (hi lo : Nat) : Nat := (w.toNat / 2 ^ lo) % 2 ^ (hi + 1 - lo)

/-- Whether bits [hi:lo] of a word are all zero. -/
def bitsZero (w : Word) (hi lo : Nat) : Bool := bits w hi lo == 0

/-- L of SPLIT and JOIN (R165): log2 of the window. -/
def litL (lit : Word) : Nat := bits lit 2 0

/-- LP and LQ of REORD (R168). -/
def litLP (lit : Word) : Nat := bits lit 2 0
def litLQ (lit : Word) : Nat := bits lit 5 3

/-- CVT's literal (R170). -/
def cvtSfmt (lit : Word) : BitVec 3 := lit.extractLsb' 4 3
def cvtDfmt (lit : Word) : BitVec 3 := lit.extractLsb' 8 3
def cvtLane (lit : Word) : Nat := bits lit 14 12
def cvtCb (lit : Word) : Nat := bits lit 19 16
def cvtForm (lit : Word) : Nat := bits lit 3 0

/-- Whether R171 lists the pair, lane, form and codebook of a CVT literal. -/
def cvtLitOk (lit : Word) : Bool :=
  let s := (cvtSfmt lit).toNat
  let d := (cvtDfmt lit).toNat
  let lane := cvtLane lit
  let form := cvtForm lit
  let cb := cvtCb lit
  bitsZero lit 31 20 && bitsZero lit 15 15 && bitsZero lit 11 11 && bitsZero lit 7 7 && form < 8 &&
    ((s == 0 && d == 1 && lane == 0 && cb == 0) || (s == 1 && d == 0 && lane == 0 && cb == 0) ||
     (s == 1 && (d == 2 || d == 3) && lane ≤ 1 && cb == 0) ||
     ((s == 2 || s == 3) && d == 1 && lane ≤ 1 && cb == 0) ||
     (s == 2 && d == 3 && lane == 0 && cb == 0) || (s == 3 && d == 2 && lane == 0 && cb == 0) ||
     (s == 4 && d == 1 && lane ≤ 7 && form == 0) ||
     (s == 5 && d == 1 && lane ≤ 3 && form == 0 && cb == 0))

/-- QSEND's literal (R178). -/
def qsendEfmt (lit : Word) : Nat := bits lit 2 0
def qsendCb (lit : Word) : Nat := bits lit 7 4
def qsendLw (lit : Word) : Nat := bits lit 10 8
def qsendLitOk (lit : Word) : Bool :=
  bitsZero lit 31 11 && bitsZero lit 3 3 &&
    ((qsendEfmt lit == 4 && qsendLw lit ≤ 4) ||
     (qsendEfmt lit == 5 && qsendLw lit ≤ 5 && qsendCb lit == 0))

/-- COMB's literal (R214). -/
def combOp (lit : Word) : Nat := bits lit 3 0
def combCount (lit : Word) : Nat := bits lit 15 8 + 1

/-- BARR, EOS, BWAIT and FENCE (R284). -/
def barrId (lit : Word) : Nat := bits lit 7 0
def barrSink (lit : Word) : Bool := lit.getLsbD 8
def eosSink (lit : Word) : Bool := lit.getLsbD 0
def bwaitPhase (lit : Word) : Bool := lit.getLsbD 8
def fenceScope (lit : Word) : Nat := bits lit 1 0

/-- QPUT and QGET (R278). -/
def queueLimit (lit : Word) : Nat := bits lit 31 11
def queueLe (lit : Word) : Nat := bits lit 10 9
def queueTrapt (lit : Word) : BitVec 9 := lit.extractLsb' 0 9

/-- OPLOAD (R394). -/
def oploadSeg (lit : Word) : BitVec 4 := lit.extractLsb' 4 4
def oploadEfmt (lit : Word) : Nat := bits lit 10 8
def oploadTr (lit : Word) : Bool := lit.getLsbD 11
def oploadLines (lit : Word) : Nat := bits lit 18 12 + 1
def oploadCb (lit : Word) : Nat := bits lit 15 12

/-- MMA (R399). -/
def mmaAcc (lit : Word) : Nat := bits lit 6 4
def mmaK (lit : Word) : Nat := bits lit 14 8 + 1
def mmaCba (lit : Word) : Nat := bits lit 19 16
def mmaCbb (lit : Word) : Nat := bits lit 23 20

/-- ACC (R402). -/
def accNum (lit : Word) : Nat := bits lit 6 4
def accSeg (lit : Word) : BitVec 4 := lit.extractLsb' 8 4

/-- The control word of the engine commands (R411). -/
def engRel (w : Word) : Bool := w.getLsbD 15
def engRsc (w : Word) : Nat := bits w 14 13
def engAcq (w : Word) : Bool := w.getLsbD 12
def engAsc (w : Word) : Nat := bits w 11 10
def engDseg (w : Word) : BitVec 4 := w.extractLsb' 4 4
def engReservedOk (w : Word) : Bool := bitsZero w 31 16 && bitsZero w 9 8
def engCtlOk (w : Word) : Bool := engReservedOk w && bitsZero w 3 0

/-- LEAVE's control word (R373). -/
def leaveDom (w : Word) : Nat := bits w 10 8
def leaveAmt (w : Word) : Nat := bits w 7 0
def leaveCtlOk (w : Word) : Bool := bitsZero w 31 11 && leaveDom w ≤ 4

/-- METER's selector (R374). -/
def meterSel (w : Word) : Nat := bits w 3 0
def meterDom (w : Word) : Nat := bits w 7 4
def meterSelOk (w : Word) : Bool :=
  bitsZero w 31 8 &&
    ((meterSel w ≤ 4 && meterDom w == 7) || (8 ≤ meterSel w && meterSel w ≤ 11 && meterDom w ≤ 4))

/-- LWOPEN's control word (R416). -/
def lwKind (w : Word) : Nat := bits w 8 8
def lwSeg (w : Word) : BitVec 4 := w.extractLsb' 4 4
def lwopenCtlOk (w : Word) : Bool := bitsZero w 31 9 && bitsZero w 3 0

/-- JCFG's control word (R440) and JSTAT's selector (R452). -/
def jcfgCtlOk (w : Word) : Bool := bitsZero w 31 8 && bitsZero w 3 0
def jstatSel (w : Word) : Nat := bits w 7 0
def jstatClr (w : Word) : Bool := w.getLsbD 8
def jstatSelOk (w : Word) : Bool := bitsZero w 31 9 && jstatSel w ≤ 14

/-- Whether the literal's FORM selects this instruction (R92). An instruction without FORM agrees. -/
def Instr.formAgrees : Instr → Bool
  | .oslotClaim f => formOf f.lit == 0
  | .oslotRelease f => formOf f.lit == 1
  | .oploadDense f => formOf f.lit == 0
  | .oploadSparse f => formOf f.lit == 1
  | .oploadCodebook f => formOf f.lit == 2
  | .mma f => formOf f.lit ≤ 2
  | .accZero f => formOf f.lit == 0
  | .accRead f => formOf f.lit == 1
  | .accPeek f => formOf f.lit == 2
  | .accWrite f => formOf f.lit == 3
  | .accStore f => formOf f.lit == 4
  | .allreduce f => formOf f.lit == 0
  | .allgather f => formOf f.lit == 1
  | .reducescatter f => formOf f.lit == 2
  | .broadcast f => formOf f.lit == 3
  | _ => true

/-- The remaining fields of the control literal, by the layout of the instruction's chapter (check 5 of
R108, REASON 0x04). An instruction whose literal is a plain operand has nothing to check. -/
def Instr.literalFieldsOk : Instr → Bool
  | .split f | .join f => bitsZero f.lit 31 3 && litL f.lit ≤ 5
  | .reord f => bitsZero f.lit 31 6 && litLP f.lit ≤ 5 && litLQ f.lit ≤ 5 && litLP f.lit + litLQ f.lit ≤ 7
  | .cvt f => cvtLitOk f.lit
  | .qsend f => qsendLitOk f.lit
  | .steer f => bitsZero f.lit 31 1
  | .workid f => bitsZero f.lit 31 4 && bits f.lit 2 0 ≤ 5
  | .comb f => bitsZero f.lit 31 16 && bitsZero f.lit 7 4 && combOp f.lit ≤ 8
  | .barr f => bitsZero f.lit 31 9
  | .eos f => bitsZero f.lit 31 1
  | .bwait f => bitsZero f.lit 31 9 && (!bwaitPhase f.lit || barrId f.lit == 0)
  | .fence f => bitsZero f.lit 31 2
  | .sclose f => bitsZero f.lit 31 5
  | .oslotClaim f | .oslotRelease f => bitsZero f.lit 31 4
  | .oploadDense f =>
    bitsZero f.lit 31 19 && (2 ≤ oploadEfmt f.lit && oploadEfmt f.lit ≤ 4) &&
      !(oploadTr f.lit && oploadEfmt f.lit == 4)
  | .oploadSparse f =>
    bitsZero f.lit 31 11 && bitsZero f.lit 7 4 && (oploadEfmt f.lit == 2 || oploadEfmt f.lit == 3)
  | .oploadCodebook f => bitsZero f.lit 31 16 && bitsZero f.lit 11 8
  | .mma f =>
    bitsZero f.lit 31 24 && bitsZero f.lit 15 15 && bitsZero f.lit 7 7 &&
      (formOf f.lit == 2 || (mmaCba f.lit == 0 && mmaCbb f.lit == 0))
  | .accZero f | .accRead f | .accPeek f => bitsZero f.lit 31 7
  | .accWrite f | .accStore f => bitsZero f.lit 31 12 && bitsZero f.lit 7 7
  | .launch f => bitsZero f.lit 31 4
  | .leave f => leaveCtlOk f.lit
  | .meter f => meterSelOk f.lit
  | .copy f | .gather f | .scatter f | .remwr f | .rematom f => engCtlOk f.lit
  | .allreduce f | .allgather f | .reducescatter f | .broadcast f => engReservedOk f.lit
  | .lwopen f => lwopenCtlOk f.lit
  | .jcfg f => jcfgCtlOk f.lit
  | .jstat f => jstatSelOk f.lit
  | _ => true

/-- Check 5 of R108: the literal, where there is one, has valid fields. A literal on a port that the instruction does not take
is judged by the same layout, before check 7 refuses it (log entry 132). -/
def Instr.check5 (i : Instr) : Bool :=
  let f := i.fields
  if f.la || f.lb then i.literalFieldsOk else true

/-- Check 6 of R108 (REASON 0x05): `pr` and `tact` only where the instruction allows them, and a zero
`seg` where the instruction has none. -/
def Instr.check6 (i : Instr) : Bool :=
  let f := i.fields
  let s := i.spec
  (s.prOk || !f.pr) && (s.tactOk || f.tact == .keep) &&
    (match i with
     | .unlock g | .sclose g | .sbar g => g.seg == 0#4
     | _ => true)

/-- Whether a port's literal bit agrees with its rule. -/
def PortSpec.literalOk (p : PortSpec) (isLit pr : Bool) : Bool :=
  match p with
  | .absent => !isLit
  | .tok _ .no => !isLit
  | .tok _ .may => true
  | .tok _ .mayPr => !isLit || pr
  | .tok _ .must => isLit

/-- Check 7 of R108 (REASON 0x07): `la` and `lb` not both set, a literal only on a port the opcode
takes, a required literal present, and at least one token port for the instructions of R134. -/
def Instr.check7 (i : Instr) : Bool :=
  let f := i.fields
  let s := i.spec
  !(f.la && f.lb) && s.a.literalOk f.la f.pr && s.b.literalOk f.lb f.pr &&
    (!s.needToken || f.pr || i.takesToken 0 || i.takesToken 1 || i.takesToken 2)

/-- The part of check 8 of R108 (REASON 0x06) that one instruction decides: no target where its form or
its table allows none. -/
def Instr.check8 (i : Instr) : Bool :=
  let f := i.fields
  let s := i.spec
  (s.t0Ok || f.t0 == noTarget) && (s.t1Ok || f.t1 == noTarget)

/-- A literal word stands only where a literal bit is set, and it selects the instruction. -/
def Instr.literalStands (i : Instr) : Bool :=
  let f := i.fields
  (f.la || f.lb || f.lit == 0#32) && i.formAgrees

/-- `mod` holds an assigned value (R96): the formats of LDV, STV and the openers lie in 0 to 5, and a
word load is not sign-extended. -/
def Instr.modOk : Instr → Bool
  | .ld _ w sx => !(sx && w == .word)
  | .ldv _ fmt | .stv _ fmt => decide (fmt.toNat ≤ 5)
  | .sopenRead _ fmt | .sopenWrite _ fmt | .sindRead _ fmt | .sindWrite _ fmt => decide (fmt.toNat ≤ 5)
  | _ => true

end Sys2Proof
end

