-- ==== Sys2Proof/Machine/Tokens.lean ====
section
/-!
DEFINITION. Plain facts about sites, tags, tokens and matched sets (R25, R35, R103, R162, R272, R362).
-/

namespace Sys2Proof

/-- The physical quadrant whose border holds a selvage tile (R103). -/
def tileQuad (n : Nat) : Nat :=
  if n < 8 then 0 else if n < 24 then 1 else if n < 40 then 3 else if n < 56 then 2 else 0

/-- SKIND and SRC of a fault record (R483). -/
def Site.skind : Site → BitVec 4
  | .elem _ _ => 0
  | .tile _ => 1
  | .issue => 2
  | .port => 3
  | .unit => 0xF
def Site.src : Site → BitVec 12
  | .elem x y => BitVec.ofNat 12 (x + 64 * y)
  | .tile n => BitVec.ofNat 12 n
  | _ => 0

/-- The tag word of a token (R25). -/
def Tag.word (t : Tag) (runm1 : BitVec 5) : BitVec 64 :=
  t.ctx ++ t.iter ++ t.path ++ t.pdep ++ t.fmt ++ runm1 ++ t.blk ++ t.inst ++ t.port ++ t.rdir.getD 0

def Token.tagWord (t : Token) : BitVec 64 := t.tag.word (BitVec.ofNat 5 (t.words.length - 1))

def CostClass.units : CostClass → Nat
  | .t => 96
  | .i => 128
  | .f => 192
  | .a => 256
  | .p => 224
  | .m => 192
  | .s => 224

/-- The number of iterations that one window of a gathering instruction covers (R166, R167, R178, R279). The words
that wait for a sparse load count as one window of their context (R397), and any other instruction has windows of 1. -/
def Instr.gatherSize : Instr → Nat
  | .join f => 2 ^ litL f.lit
  | .reord f => 2 ^ (litLP f.lit + litLQ f.lit)
  | .qsend f => (if qsendEfmt f.lit = 4 then 8 else 4) * 2 ^ qsendLw f.lit
  | .qput f => 2 ^ queueLe f.lit
  | .oploadSparse _ => 4096
  | _ => 1

def Instr.gathers : Instr → Bool
  | .join _ | .reord _ | .qsend _ | .qput _ => true
  | _ => false

/-- The instance of word `j` of a set (R24, R54). -/
def Firing.instAt (g : Firing) (j : Nat) : InstKey := ⟨g.tag.blk, g.tag.ctx, g.tag.iter + BitVec.ofNat 12 j⟩

/-- Cut a run into single-word tokens (R34, RUN1 of R35). -/
def singles (tag : Tag) : List Word → List Token
  | [] => []
  | w :: ws => ⟨tag, [w]⟩ :: singles { tag with iter := tag.iter + 1 } ws

/-- A LOCK or TRAPV token, which belongs to one iteration whatever its run (R272). -/
def controlKind (ws : List Word) : Nat := (ws.headD 0).toNat % 256
def singleIteration (fmt : BitVec 3) (ws : List Word) : Bool :=
  fmt == 7 && (controlKind ws == 4 || controlKind ws == 6)

/-- The iterations a token covers (R24, R272). -/
def Token.span (t : Token) : Nat := if singleIteration t.tag.fmt t.words then 1 else t.words.length

/-- The tag a target's token carries under a tag action that only changes the tag (R35). -/
def Tag.act (tag : Tag) : Tact → Tag
  | .inc => { tag with iter := tag.iter + 1 }
  | .dec => { tag with iter := tag.iter - 1 }
  | .zero => { tag with iter := 0 }
  | .popp =>
    if tag.pdep = 0 then tag
    else { tag with pdep := tag.pdep - 1, path := tag.path &&& ~~~(1#4 <<< (tag.pdep - 1).toNat) }
  | .clrp => { tag with path := 0, pdep := 0 }
  | .keep | .child | .parent | .run1 => tag

/-- The text of a NULL word (R29). -/
def nullWord : Word := 1#32

/-- The part of a token that covers `n` iterations from its word `off`. -/
def Token.part (t : Token) (off n : Nat) : Token :=
  if singleIteration t.tag.fmt t.words then t
  else ⟨{ t.tag with iter := t.tag.iter + BitVec.ofNat 12 off }, (t.words.drop off).take n⟩

/-- The part of a set from word `off` on, `n` words long (R46, R139). -/
def Firing.part (g : Firing) (off n : Nat) : Firing :=
  { g with
    tag := { g.tag with iter := g.tag.iter + BitVec.ofNat 12 off }
    n := n
    a := g.a.map fun t => t.part off n
    b := g.b.map fun t => t.part off n
    c := g.c.map fun t => t.part off n
    p := g.p.map fun t => t.part off n
    fired := (g.fired.drop off).take n }

/-- The tokens that a set holds. -/
def Firing.tokens (g : Firing) : List Token := [g.a, g.b, g.c, g.p].filterMap id

/-- The token an event moves, when the event is a step of a token's way (R38). -/
def Instr.flight? : Instr → Option Flight
  | .tokenRoute f | .tokenArrival f | .spillSearch f | .heldTokenAccept f | .headerLatchFreed f
  | .streamDataArrival f | .sparseCoordinate f => some f
  | _ => none

/-- The instance that gave word `j` of a token. -/
def Emitter.keyAt (e : Emitter) (j : Nat) : InstKey :=
  if e.each then { e.key with iter := e.key.iter + BitVec.ofNat 12 j } else e.key

/-- The emitter of the words from word `j` on. -/
def Emitter.from' (e : Emitter) (j : Nat) : Emitter := { e with key := e.keyAt j }

end Sys2Proof
end

