-- ==== Sys2Proof/Machine/Ops.lean ====
section
/-!
DEFINITION. The named operations over a task, its hoop and its tower: access to each record, the agenda,
the causes that end a task (R338 to R340) and the exception entry `State.raise`, debits (R7, R362, R363),
admission and windows (R187, R188, R206 to R210), counting (R54) and emission (R35, R36, R136).
-/

namespace Sys2Proof.Machine

abbrev Result := Host.Outcome State Fault Refusal

/-! ### Records -/

def State.task? (s : State) (id : Nat) : Option Task := s.tasks.find? fun t => t.id == id
def State.withTask (s : State) (id : Nat) (f : Task → Task) : State :=
  { s with tasks := modifyWhere (fun t => t.id == id) f s.tasks }
def State.hoop (s : State) (h : Nat) : Hoop := s.hoops.getD h Hoop.reset
def State.withHoop (s : State) (h : Nat) (f : Hoop → Hoop) : State := { s with hoops := s.hoops.modify h f }
def State.tower (s : State) (k : Nat) : Tower := s.towers.getD k Tower.reset
def State.withTower (s : State) (k : Nat) (f : Tower → Tower) : State := { s with towers := s.towers.modify k f }
def State.domain (s : State) (h d : Nat) : Domain := (s.hoop h).domains.getD d Domain.reset
def State.withDomain (s : State) (h d : Nat) (f : Domain → Domain) : State :=
  s.withHoop h fun x => { x with domains := x.domains.modify d f }
def State.engine (s : State) (k e : Nat) : Engine := (s.tower k).engines.getD e ⟨[], [], 0, .none⟩
def State.withEngine (s : State) (k e : Nat) (f : Engine → Engine) : State :=
  s.withTower k fun t => { t with engines := t.engines.modify e f }
def State.withJoin (s : State) (k : Nat) (f : JoinEngine → JoinEngine) : State :=
  s.withTower k fun t => { t with join := f t.join }

/-! ### The agenda -/

def State.push (s : State) (e : Instr) : State := { s with agenda := s.agenda ++ [.event e] }
def State.pushAll (s : State) (es : List Instr) : State := { s with agenda := s.agenda ++ es.map Item.event }
def State.pushFiring (s : State) (g : Firing) : State := { s with agenda := s.agenda ++ [.firing g] }
def State.send (s : State) (m : OutMsg) : State := { s with outbox := s.outbox ++ [m] }

/-- Bring-up is complete (R472): links train, and the schedulers accept notices. -/
def State.up (s : State) : Bool := s.bringUp == .running

/-- A message leaves over a link. The part sends nothing while its node is unassigned, which after RUN it stays (R471). -/
def State.sendLink (s : State) (m : OutMsg) : State := if s.node = 0x3FFF then s else s.send m

/-- A pick among `n` possibilities that the manual leaves open, taken from the model's own choices. -/
def State.pick (s : State) (n : Nat) : Nat × State :=
  match s.choices with
  | [] => (0, s)
  | c :: cs => (c % n, { s with choices := cs })

/-- The current item goes on waiting (R7 Wait): it returns to its place, and the next item is tried. -/
def State.block (s : State) : State :=
  match s.cur with
  | some (it, k) => { s with agenda := s.agenda.take k ++ it :: s.agenda.drop k, cursor := k + 1, cur := none }
  | none => s

/-- The current item becomes another event in the same place of the agenda. -/
def State.become (s : State) (e : Instr) : State :=
  match s.cur with
  | some (_, k) => { s with agenda := s.agenda.take k ++ .event e :: s.agenda.drop k, cur := none }
  | none => s.push e

/-- A fresh number for a free value. -/
def State.freshen (s : State) : State := { s with fresh := s.fresh + 1 }

/-! ### Sites and placement (R99 to R103) -/

/-- The physical element of a logical element of a task (R99). -/
def Task.physical (t : Task) (x y : Nat) : Site :=
  let q := t.quads.getD (x / 32 + 2 * (y / 32)) 0
  .elem (32 * (q % 2) + x % 32) (32 * (q / 2) + y % 32)

/-- The task's lowest physical quadrant (R363). -/
def Task.lowQuad (t : Task) : Nat := t.quads.headD 0

/-- The metered domain a site draws on (R363). -/
def Task.domainOf (t : Task) : Site → Nat
  | .elem x y => x / 32 + 2 * (y / 32)
  | .tile n => tileQuad n
  | .issue => 4
  | .port | .unit => t.lowQuad

/-- The task slot of R269. -/
def Task.slot (t : Task) : Nat := 4 * t.hoop + t.lowQuad

/-- The domains of a task: its quadrants, and the matrix domain when it holds the array. -/
def Task.domains (t : Task) : List Nat := if t.tcb.mtx then t.quads ++ [4] else t.quads

def Task.block? (t : Task) (blk : BitVec 7) : Option Block := t.blocks[blk.toNat]?
def Task.placed? (t : Task) (blk inst : BitVec 7) : Option Placed := (t.block? blk).bind fun b => b.code[inst.toNat]?
def Placed.instr? (p : Placed) : Option Instr := (decode p.word p.lit).toOption
def Task.instr? (t : Task) (blk inst : BitVec 7) : Option Instr := (t.placed? blk inst).bind Placed.instr?

/-- The site of the replica of an instruction that an iteration goes to (R34, R100). -/
def Task.siteOf (t : Task) (blk inst : BitVec 7) (iter : BitVec 12) : Site :=
  match t.block? blk with
  | some b =>
    match b.code[inst.toNat]? with
    | some p =>
      match p.site with
      | .elem x y => t.physical (x + (iter.toNat % b.rho) * b.width) y
      | u => u
    | none => .unit
  | none => .unit

/-! ### The store of a domain (R356 to R360, R380) -/

/-- A tower's thermal trip acts on a hoop (R463). -/
def State.tripped (s : State) (h : Nat) : Bool := s.trips.contains (h / 16)

/-- The charge above the floor that `n` segments hold at `mv`, in 1/256 stroke: a segment holds 93.75 pC for each mV, and a
stroke is 64 pC (R351, R352). -/
def segmentCharge (n mv : Nat) : Nat := n * 375 * (mv - 420)

/-- The strokes that bring `n` segments from the floor to `mv`. -/
def strokesOf (n mv : Nat) : Nat := (segmentCharge n mv + 255) / 256

/-- The voltage in mV that `n` connected segments reach with a number of strokes (R356). -/
def voltsOf (n strokes : Nat) : Nat := 420 + strokes * 256 / (375 * n)

/-- The highest voltage that a store can stand at. -/
def Domain.top (x : Domain) : Nat := Nat.min x.vmv.toNat (voltsOf x.nseg x.fed)

/-- The voltage at which a pump holds its store (R358, R462, R463): that of the fill or of the move in progress, or the
feed-cap hold or the trip hold where it is lower. -/
def State.holdMv (s : State) (h d : Nat) : Nat :=
  let x := s.domain h d
  let cap := if s.capReached then Nat.max 550 (x.cur.toNat - 100) else 1000
  let trip := if s.tripped h then 550 else 1000
  Nat.min (x.moving.getD x.cur).toNat (Nat.min cap trip)

/-- The voltage that a domain's rail has or moves to in schedule mode (R379, R463). -/
def State.railGoal (s : State) (h d : Nat) : BitVec 10 :=
  let x := s.domain h d
  if s.tripped h then 550 else x.moving.getD x.cur

/-- A store voltage that only the charge drawn determines: a free value between two bounds. -/
def State.freeMv (s : State) (h d low top : Nat) : BitVec 10 × State :=
  (BitVec.ofNat 10 (Nat.max low (Nat.min top (Config.storeMillivolts s.fresh (5 * h + d)).toNat)), s.freshen)

/-- The store voltage of a domain in mV, or its rail voltage in schedule mode (R358, R360, R380, R462, R463). A store that
its pump does not feed falls from the voltage it was last seen at. -/
def State.storeMv (s : State) (h d : Nat) : BitVec 10 × State :=
  let x := s.domain h d
  if x.schedule then
    let g := s.railGoal h d
    if x.rail = g then (g, s) else s.freeMv h d (Nat.min x.rail.toNat g.toNat) (Nat.max x.rail.toNat g.toNat)
  else if x.kept then (450, s)
  else match x.st with
    | .idle | .stop | .held => (x.vmv, s)
    | .fill | .feed | .drain =>
      let low := if s.pumpsStalled then 420 else Nat.min x.low.toNat (s.holdMv h d)
      if x.top ≤ low then (BitVec.ofNat 10 x.top, s)
      else match s.freeMv h d low x.top with
        | (v, s1) =>
          if x.st = .drain ∨ s.pumpsStalled then (v, s1.withDomain h d fun x => { x with vmv := v }) else (v, s1)

/-! ### The causes that end a task (R338 to R340) -/

def F_ILL : BitVec 8 := 0x01
def F_FMT : BitVec 8 := 0x02
def F_SEG : BitVec 8 := 0x03
def F_XLATE : BitVec 8 := 0x04
def F_PROT : BitVec 8 := 0x05
def F_STAGE : BitVec 8 := 0x06
def F_SPILL : BitVec 8 := 0x07
def F_CTX : BitVec 8 := 0x08
def F_QUIET : BitVec 8 := 0x09
def F_QWAIT : BitVec 8 := 0x0A
def F_WONCE : BitVec 8 := 0x0B
def F_REMOTE : BitVec 8 := 0x0C
def F_CHECK : BitVec 8 := 0x0D
def F_LEAVE : BitVec 8 := 0x0E
def F_SHORT : BitVec 8 := 0x0F
def F_TRAP : BitVec 8 := 0x10
def F_PREEMPT : BitVec 8 := 0x11
def F_LOCK : BitVec 8 := 0x13
def F_ECC : BitVec 8 := 0x14

/-- A cause with no token: SKIND 0xF. -/
def Cause.plain (code : BitVec 8) (d0 d1 d2 d3 : Word) : Cause := ⟨code, d0, d1, d2, d3, 0xF, 0, 0⟩

/-- A cause raised on a token or a set: the fault record names the source of the token (R37, R483). -/
def Cause.at (code : BitVec 8) (src : Site) (d0 d1 d2 d3 : Word) : Cause :=
  ⟨code, d0, d1, d2, d3, src.skind, src.src, 0⟩

/-- The shortfall figure that a cause leaves in SHORTF: that of F_SHORT, and zero of any other (R365). -/
def Cause.figure (c : Cause) : Word := if c.code = F_SHORT then c.d1 else 0

/-- Commit steps 3 to 7 have begun: nothing aborts the task (R300). -/
def Phase.committed : Phase → Bool
  | .draining | .tokens => true
  | _ => false

/-- The task has a cause and is on its way out, or is a saved task. -/
def Phase.leaving : Phase → Bool
  | .aborting | .parking | .recording | .kept | .saved => true
  | _ => false

/-- The failure reasons that violate a landing window (R419, R426). -/
def violatesWindow (reason : BitVec 8) : Bool := decide (1 ≤ reason.toNat ∧ reason.toNat ≤ 4) || reason == 7

/-- The cause freezes the quadrants of its task as a master (R339, R343): a protection violation, a step without
leave by a master of the hoop (R378), or a window violation in the task's own package (R419, R426). A fault of the
block-image fetch freezes nothing. -/
def Cause.freezes (c : Cause) (node : BitVec 14) (p : Phase) : Bool :=
  p != .fetching && (c.code == F_PROT || (c.code == F_LEAVE && c.d0.extractLsb' 30 2 == 3#2) ||
    (c.code == F_REMOTE && violatesWindow (c.d0.extractLsb' 24 8) && c.d1.extractLsb' 0 14 == node))

/-- The meters of a task stop their pumps for a freeze (R360): FEED and DRAIN go to HELD, and the store's voltage
is kept. -/
def State.holdDomain (s : State) (h d : Nat) : State :=
  match (s.domain h d).st with
  | .feed | .drain => match s.storeMv h d with
    | (mv, s1) => s1.withDomain h d fun x => { x with st := .held, vmv := mv, low := mv }
  | _ => s

def State.holdDomains (s : State) (t : Task) : State :=
  if t.schedule then s else t.domains.foldl (fun s d => s.holdDomain t.hoop d) s

/-- THE EXCEPTION ENTRY: a cause reaches the hoop's task control (R339, R340). The first cause stands; of causes
in one tick the lowest code, and a fault that arises during a pre-emption's freeze replaces F_PREEMPT (R349). After
commit step 3 the cause is only logged (R300). The shortfall figure is that of the cause that stands (R365). Otherwise the cause, its details and the tick are saved in the task,
the task stops, a violation freezes its quadrants, and its abort begins; the outcome of each cause is TASK_ABORT's
and PARK's, which write CAUSE and the fault record. -/
def State.raise (s : State) (id : Nat) (c : Cause) : State :=
  match s.task? id with
  | none => s
  | some t =>
    if t.phase.committed then s.logEvent 0x03 t.hoop (c.code.zeroExtend 32) 0
    else if t.phase.leaving then
      match t.cause with
      | some c0 =>
        if t.phase = .aborting ∧ (c0.code = F_PREEMPT ∨ (c0.tick = s.time ∧ c.code.toNat < c0.code.toNat)) then
          let frozen := if c.freezes s.node .running then .byViolation else if t.frozen = .byViolation then .none else t.frozen
          s.withTask id fun t => { t with cause := some { c with tick := s.time }, frozen := frozen, shortf := c.figure }
        else s
      | none => s
    else
      let freezes := c.freezes s.node t.phase
      let s1 := s.withTask id fun t => { t with
        cause := some { c with tick := s.time }, phase := .aborting, frozen := if freezes then .byViolation else t.frozen
        shortf := c.figure }
      (if freezes then s1.holdDomains t else s1).push (.taskAbort id)

/-- The F_ILL detail word (R110). -/
def illDetail (reason : BitVec 8) (iv : Bool) (inst : BitVec 7) (blk : BitVec 9) : Word :=
  reason ++ BitVec.ofBool iv ++ inst ++ blk ++ (0 : BitVec 7)

/-- The low and high words of a virtual address. -/
def vaLo (va : Nat) : Word := BitVec.ofNat 32 va
def vaHi (va : Nat) : Word := BitVec.ofNat 32 (va / 2 ^ 32)

/-- An F_ILL fault of a running instruction (R110, R483). -/
def State.raiseIll (s : State) (id : Nat) (src : Site) (tag : Tag) (reason : BitVec 8) : State :=
  let image := match s.task? id with
    | some t => match t.block? tag.blk with
      | some b => b.image
      | none => 0
    | none => 0
  s.raise id (.at F_ILL src (illDetail reason true tag.inst (tag.blk.zeroExtend 9)) 0 (vaLo image) (vaHi image))

/-- An F_FMT fault outside the matrix array (R484). -/
def State.raiseFmt (s : State) (id : Nat) (src : Site) (tok : Token) (freason : BitVec 8) (word : Word) : State :=
  s.raise id (.at F_FMT src (freason ++ (0 : BitVec 3) ++ tok.tag.blk ++ tok.tag.inst ++ (0 : BitVec 7))
    (tok.tagWord.extractLsb' 32 32) (tok.tagWord.extractLsb' 0 32) word)

/-- The shortfall figure of R365. -/
def shortFigure (b marks progress : Nat) : Nat :=
  if marks = 0 then 0xFFFFFFFF
  else if progress ≤ marks then 1
  else Nat.min ((b * (progress - marks) + marks - 1) / marks) 0xFFFFFFFE

/-- A task stops short (R365, R366): the meter forms the figure and the task takes F_SHORT. `at?` is the
block and instruction of the firing whose debit failed. -/
def State.stopShort (s : State) (id dom : Nat) (at? : Option (BitVec 7 × BitVec 7)) : State :=
  match s.task? id with
  | none => s
  | some t =>
    let fig := shortFigure t.packets t.marks t.tcb.progress
    let dom3 := if dom = 4 then 4 else if dom = 7 then 7 else (t.quads.idxOf dom)
    let d0 : Word := BitVec.ofNat 3 dom3 ++ BitVec.ofBool t.schedule ++ BitVec.ofBool at?.isSome ++ (0 : BitVec 6) ++
      (at?.map (·.1)).getD 0 ++ (at?.map (·.2)).getD 0 ++ (0 : BitVec 7)
    s.raise id (.plain F_SHORT d0 (BitVec.ofNat 32 fig) (BitVec.ofNat 32 t.marks) (BitVec.ofNat 32 (Nat.min t.packets 0xFFFFFFFF)))

/-! ### Debits (R7, R362, R363, R467) -/

/-- The voltage a debit is scaled by (R362, R379, R463): during a move of the rail, the higher of the two. -/
def State.debitMv (s : State) (h d : Nat) : Nat := Nat.max (s.domain h d).rail.toNat (s.railGoal h d).toNat

/-- One debit. In store mode it has no effect on the account (R359). In schedule mode the account pays, or
the answer is `error` and nothing was debited. -/
def State.debit (s : State) (id dom units : Nat) : Except State State :=
  match s.task? id with
  | none => .ok s
  | some t =>
    if t.schedule then
      let cost := (units * s.debitMv t.hoop dom + 799) / 800
      if t.account < cost then .error s
      else .ok (s.withTask id fun t => { t with account := t.account - cost, delivered := t.delivered + cost })
    else .ok s

/-- `n` debits in a row; `error` holds the state after those that could be paid. -/
def State.debits (s : State) (id dom units : Nat) : Nat → Except State State
  | 0 => .ok s
  | n + 1 =>
    match s.debit id dom units with
    | .ok s1 => s1.debits id dom units n
    | .error s1 => .error s1

/-- Count one word whose firing took place in a domain (R467), which also resets the quiescence count. -/
def State.countFire (s : State) (id dom : Nat) : State :=
  match s.task? id with
  | none => s
  | some t => (s.withDomain t.hoop dom fun d => { d with fire := d.fire + 1 }).withTask id fun t => { t with quiet := 0 }

/-- The firing of one word at its site: its passes are debited and it is counted. A debit that fails stops
the task (R46). -/
def State.fireWord (s : State) (g : Firing) (cls : CostClass) (passes : Nat) : Except State State :=
  match s.task? g.task with
  | none => .ok s
  | some t =>
    let dom := t.domainOf g.site
    match s.debits g.task dom cls.units passes with
    | .ok s1 => .ok (s1.countFire g.task dom)
    | .error s1 => .error (s1.stopShort g.task dom (some (g.tag.blk, g.tag.inst)))

/-- A debit of a set's site that is no word's firing (R197). -/
def State.debitAt (s : State) (g : Firing) (cls : CostClass) : Except State State :=
  match s.task? g.task with
  | none => .ok s
  | some t =>
    match s.debits g.task (t.domainOf g.site) cls.units 1 with
    | .ok s1 => .ok (s1.withTask g.task fun t => { t with quiet := 0 })
    | .error s1 => .error (s1.stopShort g.task (t.domainOf g.site) (some (g.tag.blk, g.tag.inst)))

/-- The debit of lines on a domain; a debit that fails stops the task. -/
def State.debitLines (s : State) (g : Firing) (dom : Nat) (c : LineClass) (n : Nat) : Except State State :=
  match s.debits g.task dom c.units n with
  | .ok s1 => .ok s1
  | .error s1 => .error (s1.stopShort g.task dom (some (g.tag.blk, g.tag.inst)))

/-- A task's activity resets its quiescence count (R217). -/
def State.active (s : State) (id : Nat) : State := s.withTask id fun t => { t with quiet := 0 }

/-! ### Contexts, windows and admission (R42, R187, R188, R206, R209, R210) -/

def Task.context? (t : Task) (ctx : BitVec 12) : Option Context := t.contexts.find? fun c => c.ctx == ctx
def Task.withContext (t : Task) (ctx : BitVec 12) (f : Context → Context) : Task :=
  { t with contexts := modifyWhere (fun c => c.ctx == ctx) f t.contexts }
def Task.inst? (t : Task) (k : InstKey) : Option Instance := t.insts.find? fun i => i.key == k
def Task.withInst (t : Task) (k : InstKey) (f : Instance → Instance) : Task :=
  { t with insts := modifyWhere (fun i => i.key == k) f t.insts }
def Task.window? (t : Task) (blk : BitVec 7) (ctx : BitVec 12) : Option Window :=
  t.windows.find? fun w => w.blk == blk && w.ctx == ctx

/-- The context of a list that was allocated earliest. -/
def earliest : List Context → Option Context
  | [] => none
  | c :: cs =>
    match earliest cs with
    | some d => if c.seq ≤ d.seq then some c else some d
    | none => some c

/-- The oldest context of a task (R42). -/
def Task.oldest (t : Task) : Option Context := earliest t.contexts

def Task.children (t : Task) (ctx : BitVec 12) : List Context :=
  t.contexts.filter fun c => match c.parent with
    | some p => p.ctx == ctx
    | none => false

/-- The contexts of the oldest chain from a context (R206). -/
def Task.chainFrom (t : Task) (c : Context) : Nat → List (BitVec 12)
  | 0 => [c.ctx]
  | fuel + 1 =>
    match earliest (t.children c.ctx) with
    | some d => c.ctx :: t.chainFrom d fuel
    | none => [c.ctx]

def Task.oldestChain (t : Task) : List (BitVec 12) :=
  match t.oldest with
  | some c => t.chainFrom c t.contexts.length
  | none => []

/-- The contexts of a hoop's free pool that no task has in reserve (R205): live and retired contexts and
reserves taken from 4,096. -/
def State.unreserved (s : State) (h : Nat) : Nat :=
  let ts := s.tasks.filter fun t => t.hoop == h && t.phase != .saved
  4096 - (ts.map fun t => t.contexts.length + t.reserve).sum - (s.hoop h).retired.length

/-- The offset of an iteration in its window (R187). -/
def Window.offset (w : Window) (iter : BitVec 12) : Nat := (iter - w.base).toNat

/-- The matching-store entry a held word belongs to: its window. -/
def Task.windowKey (t : Task) (w : Wait) : Tag × Option Nat :=
  let size := ((t.instr? w.tok.tag.blk w.tok.tag.inst).map Instr.gatherSize).getD 1
  ({ w.tok.tag with iter := BitVec.ofNat 12 (w.tok.tag.iter.toNat / size), port := 0, fmt := 0, rdir := none }, w.flush)

/-- A set is an arrival at COMB, which takes its words into its accumulations, as a gathering instruction does, and
holds no entry of its own (R162, R215). -/
def State.atComb (s : State) (g : Firing) : Bool :=
  match (s.task? g.task).bind fun t => t.instr? g.tag.blk g.tag.inst with
  | some (.comb _) => true
  | _ => false

/-- The blocks of QSEND that wait for leave (R179): each is a set that has not fired. -/
def Task.blockSets (t : Task) : List Firing :=
  t.ops.flatMap fun o => match o.instr with
    | .qsend _ => (o.words.filter fun w => w.stage != .done && !w.dropped).map fun w => { o.firing with
        a := none, win := (w.outs.filter fun x => x != .none).map fun _ => ⟨0, 0, 0⟩ }
    | _ => []

/-- The complete sets of a task that have not fired and hold an entry. -/
def State.setsOf (s : State) (id : Nat) : List Firing :=
  (s.agenda.filterMap fun x => match x with
    | .firing g => if g.task = id ∧ s.atComb g = false then some g else none
    | .event _ => none) ++ ((s.task? id).map Task.blockSets).getD []

/-- The entries that a task's waiting tokens, gathered windows, accumulations, LOOPI issues and complete sets
`gs` take at a site (R40, R41, R162), for the contexts that `mine` names. -/
def Task.entriesAt (t : Task) (gs : List Firing) (site : Site) (mine : BitVec 12 → Bool) : Nat :=
  let ws := t.waiting.filter fun w => w.site == site && w.slot.isNone && mine w.tok.tag.ctx
  let plain := (ws.filter fun w => !w.held).length
  let windows := ((ws.filter fun w => w.held).map t.windowKey).eraseDups.length
  let accs := ((t.accums.filter fun a => a.site == site && a.slot.isNone && mine a.tag.ctx).map (·.run)).eraseDups.length
  let loops := (t.loops.filter fun l => l.firing.site == site && mine l.firing.tag.ctx && !l.ended).length
  let sets := (gs.filter fun g => g.site == site && mine g.tag.ctx).length
  plain + windows + accs + loops + sets

/-- The pool words they take. -/
def Task.poolAt (t : Task) (gs : List Firing) (site : Site) (mine : BitVec 12 → Bool) : Nat :=
  let ws := t.waiting.filter fun w => w.site == site && w.slot.isNone && mine w.tok.tag.ctx
  let accs := t.accums.filter fun a => a.site == site && a.slot.isNone && mine a.tag.ctx
  let sets := gs.filter fun g => g.site == site && mine g.tag.ctx
  (ws.map fun w => w.tok.words.length).sum + accs.length +
    (sets.map fun g => (g.tokens.map fun k => k.words.length).sum + g.win.length).sum

/-- Whether `entries` more entries and `words` more pool words are open to a context at a site (R42). -/
def Task.openTo (t : Task) (gs : List Firing) (site : Site) (ctx : BitVec 12) (entries words : Nat) : Bool :=
  let old := match t.oldest with
    | some c => fun x => x == c.ctx
    | none => fun _ => false
  let eo := t.entriesAt gs site old + (if old ctx then entries else 0)
  let ex := t.entriesAt gs site (fun x => !old x) + (if old ctx then 0 else entries)
  let wo := t.poolAt gs site old + (if old ctx then words else 0)
  let wx := t.poolAt gs site (fun x => !old x) + (if old ctx then 0 else words)
  decide ((eo - 4) + ex ≤ 28 ∧ (wo - 128) + wx ≤ 384)

/-- The presence-filter bits of a run of iterations: one for each block of 32 iterations that it touches (R47). -/
def presenceBits (tag : Tag) (span : Nat) : List (BitVec 8) :=
  let first := tag.iter.toNat / 32
  ((List.range ((tag.iter.toNat + span - 1) / 32 - first + 1)).map fun k =>
    Config.spillHash tag.ctx ((first + k) % 128) tag.blk tag.inst).eraseDups

/-- The spilled tokens of a task. -/
def Task.spills (t : Task) : List SpillSlot := ((t.waiting.filterMap (·.slot)) ++ (t.accums.filterMap (·.slot))).eraseDups

/-- A spilled token leaves the spill area: the spill count beside each of its bits falls, and a bit clears with its count
(R48, R384). -/
def Task.freeSpill (t : Task) (p : SpillSlot) : Task :=
  let one := fun (t : Task) (b : BitVec 8) => { t with
    filters := (modifyWhere (fun x => x.site == p.site && x.bit == b) (fun x => { x with count := x.count - 1 }) t.filters).filter
      fun x => x.count != 0 }
  p.bits.foldl one t

/-- A task whose waiting tokens or accumulations have changed: the spilled tokens that are gone leave the spill area. -/
def Task.settleSpill (old t : Task) : Task :=
  let now := t.spills
  (old.spills.filter fun p => !now.contains p).foldl Task.freeSpill t

/-- The lowest free spill slot. -/
def Task.freeSlot (t : Task) : Option Nat :=
  (List.range (t.tcb.spillsz / 256)).find? fun k => !(t.spills.any fun p => p.slot == k)

/-- A spilled token is counted beside each of its bits. -/
def Task.recordSpill (t : Task) (p : SpillSlot) : Task :=
  let one := fun (t : Task) (b : BitVec 8) =>
    let mine := fun (x : Presence) => x.site == p.site && x.bit == b
    if t.filters.any mine then { t with filters := modifyWhere mine (fun x => { x with count := x.count + 1 }) t.filters }
    else { t with filters := t.filters ++ [⟨p.site, b, 1⟩] }
  p.bits.foldl one t

/-- The spill count beside a presence bit. -/
def Task.spillCount (t : Task) (site : Site) (b : BitVec 8) : Nat :=
  match t.filters.find? fun p => p.site == site && p.bit == b with
  | some p => p.count
  | none => 0

/-- What the hoop writes to 256 bytes of a task's own area, by whole lines under the task's key (R431), in a layout that the manual does
not give (R47, R345): the bytes are free values. The answer is the fault of its translation, if it has one. -/
def State.writeHidden (s : State) (asid : BitVec 16) (key : BitVec 12) (va : Nat) : Except (BitVec 8) State :=
  match s.translate asid va true (some key) with
  | .ok pa => .ok ([0, 64, 128, 192].foldl (fun r d =>
      r.plainWrite (pa + d) ((List.range 64).map fun k => Config.savedByte s.fresh (d + k)) key partWriter) s).freshen
  | .prot => .error F_PROT
  | _ => .error F_XLATE

/-- A fault whose detail words no rule gives. -/
def State.raiseUnstated (s : State) (id : Nat) (src : Site) (code : BitVec 8) : State :=
  let d := fun k => Config.unstatedDetail s.fresh k
  s.freshen.raise id (.at code src (d 0) (d 1) (d 2) (d 3))

/-- A token of `run` words that covers `span` iterations takes a spill slot (R47, R49, R50): its place and the state, or
the state in which the task stops. -/
def State.spillOut (s : State) (id : Nat) (site src : Site) (tag : Tag) (run span : Nat) : Except State (SpillSlot × State) :=
  match s.task? id with
  | none => .error s
  | some t =>
    let bits := presenceBits tag span
    match t.freeSlot with
    | none => .error (s.raise id (.at F_SPILL src 0 0 0 0))
    | some k =>
      if bits.any fun b => decide (255 ≤ t.spillCount site b) then .error (s.raise id (.at F_SPILL src 0 0 0 0))
      else
        match s.debits id (t.domainOf site) LineClass.dram.units ((8 + 4 * run + 63) / 64) with
        | .error s1 => .error (s1.stopShort id (t.domainOf site) none)
        | .ok s1 =>
          match s1.writeHidden t.tcb.asid t.tcb.key (t.tcb.spill + 256 * k) with
          | .error code => .error (s1.raiseUnstated id src code)
          | .ok s2 => .ok (⟨k, site, bits⟩, s2.withTask id fun t => t.recordSpill ⟨k, site, bits⟩)

/-- A spilled token of `run` words comes back (R48, R49): its lines are debited, and it leaves the spill area with the
record that is changed. -/
def State.spillIn (s : State) (id : Nat) (site : Site) (run : Nat) (f : Task → Task) : Except State State :=
  match s.task? id with
  | none => .ok s
  | some t =>
    match s.debits id (t.domainOf site) LineClass.dram.units ((8 + 4 * run + 63) / 64) with
    | .error s1 => .error (s1.stopShort id (t.domainOf site) none)
    | .ok s1 => .ok ((s1.withTask id fun t => t.settleSpill (f t)).active id)

/-- Only the accumulations that are still wanted stay (R192, R384). -/
def Task.keepAccums (t : Task) (keep : Accum → Bool) : Task := t.settleSpill { t with accums := t.accums.filter keep }

/-- The elements of a task's quadrants that its tokens wait at. -/
def Task.elements (t : Task) (gs : List Firing) : List Site :=
  (((t.waiting.map (·.site)) ++ (t.accums.map (·.site)) ++ (t.loops.map (·.firing.site)) ++ (gs.map (·.site))).filter fun x =>
    match x with
    | .elem _ _ => true
    | _ => false).eraseDups

/-- The throttle of a task (R209). -/
def Task.throttled (t : Task) (gs : List Firing) : Bool :=
  (t.elements gs).any fun site => decide (t.tcb.hiwat < t.entriesAt gs site fun _ => true)

/-- The instances of a window that lie within their block's depth may be admitted now (R188, R210). -/
def State.opens (s : State) (t : Task) (w : Window) (b : Block) : Bool :=
  let chain := t.oldestChain.contains w.ctx
  (chain || !t.throttled (s.setsOf t.id)) && (!b.calls || chain || decide (1 ≤ s.unreserved t.hoop))

/-- Whether an instance is admitted: once it has been, or now (R188). -/
def State.admitted (s : State) (t : Task) (k : InstKey) : Bool :=
  match t.window? k.blk k.ctx, t.block? k.blk with
  | some w, some b =>
    let d := w.offset k.iter
    d == 0 || decide (d < w.reach) || (decide (d < b.adepth) && s.opens t w b)
  | _, _ => false

/-- The instances that meet the conditions of R188 are admitted, and stay so. -/
def State.noteAdmitted (s : State) : State :=
  let note := fun (t : Task) (w : Window) => match t.block? w.blk with
    | some b => if w.reach < b.adepth ∧ s.opens t w b then { w with reach := b.adepth } else w
    | none => w
  { s with tasks := s.tasks.map fun t =>
      if t.phase = .running then { t with windows := t.windows.map (note t) } else t }

/-- An instance that exists or is admitted, for R55, R196 and R230; the base of a window always does. -/
def State.instanceStands (s : State) (t : Task) (k : InstKey) : Bool :=
  (t.inst? k).isSome || ((match t.window? k.blk k.ctx with
    | some w => decide (w.offset k.iter < 2048)
    | none => false) && s.admitted t k)

/-- The instance is the base of its window (R187, R257). -/
def Task.isBase (t : Task) (k : InstKey) : Bool :=
  match t.window? k.blk k.ctx with
  | some w => w.base == k.iter
  | none => false

/-- An instance that may act as the base: it is the base, or it has been and has committed (R232, R257). -/
def Task.atBase (t : Task) (k : InstKey) : Bool := t.isBase k || (t.inst? k).isNone

/-- An arriving token of the iteration is covered by a squash record (R193). -/
def Task.squashed (t : Task) (blk : BitVec 7) (ctx iter : BitVec 12) : Bool :=
  t.squashes.any fun r => r.blk == blk && r.ctx == ctx &&
    (let d := (iter - r.iter).toNat
     decide (0 < d ∧ d < 2048))

/-- Bring an instance into being, opening its window if it has none (R54, R187). -/
def State.ensureInst (s : State) (id : Nat) (tag : Tag) (iter : BitVec 12) : State :=
  s.withTask id fun t =>
    let k : InstKey := ⟨tag.blk, tag.ctx, iter⟩
    let t1 := if (t.window? tag.blk tag.ctx).isSome then t
      else { t with windows := t.windows ++ [⟨tag.blk, tag.ctx, iter, 1⟩] }
    if (t1.inst? k).isSome then t1
    else { t1 with
      insts := t1.insts ++ [⟨k, t1.nextSeq, 0, 0, false, none, [], 0, [], tag.path, tag.pdep⟩]
      nextSeq := t1.nextSeq + 1 }

/-! ### Counting (R54) -/

/-- An instance has counted everything its block asks for. -/
def Task.complete (t : Task) (i : Instance) : Bool :=
  match t.block? i.key.blk with
  | some b => i.exited && (b.storeMask &&& ~~~i.lsids == 0) && (b.writeMask &&& ~~~i.fws == 0)
  | none => false

/-- When an instance has become complete its commit comes up. -/
def State.checkComplete (s : State) (id : Nat) (k : InstKey) : State :=
  match s.task? id with
  | some t =>
    match t.inst? k with
    | some i => if t.complete i then s.push (.instanceCommit id k) else s
    | none => s
  | none => s

/-- What an instance counts. -/
inductive Counted where
  | lsid (n : BitVec 5)
  | fw (n : BitVec 5)
  | exit
  deriving DecidableEq, Repr

/-- Whether the instance has counted it already. -/
def Instance.has (i : Instance) : Counted → Bool
  | .lsid n => i.lsids.getLsbD n.toNat
  | .fw n => i.fws.getLsbD n.toNat
  | .exit => i.exited

def Instance.mark (i : Instance) : Counted → Instance
  | .lsid n => { i with lsids := i.lsids ||| (1#32 <<< n.toNat) }
  | .fw n => { i with fws := i.fws ||| (1#32 <<< n.toNat) }
  | .exit => { i with exited := true }

/-- Count once for an instance. A second count faults the task with F_ILL, REASON 0x11. A count for an
instance that is gone counts nothing. -/
def State.count (s : State) (id : Nat) (src : Site) (tag : Tag) (k : InstKey) (c : Counted) : State :=
  match s.task? id with
  | none => s
  | some t =>
    match t.inst? k with
    | none => s
    | some i =>
      if i.has c then s.raiseIll id src tag 0x11
      else (s.withTask id fun t => t.withInst k fun i => i.mark c).checkComplete id k

/-- Count, or stop the set with the task's fault (R54). -/
def State.countOr (s : State) (id : Nat) (src : Site) (tag : Tag) (k : InstKey) (c : Counted) : Except State State :=
  match (s.task? id).bind fun t => t.inst? k with
  | some i => if i.has c then .error (s.raiseIll id src tag 0x11) else .ok (s.count id src tag k c)
  | none => .ok s

/-- Raise flags into an instance's pending flags (R70, R137). -/
def State.raiseFlags (s : State) (id : Nat) (k : InstKey) (fl : BitVec 5) : State :=
  if fl = 0 then s else s.withTask id fun t => t.withInst k fun i => { i with flags := i.flags ||| fl }

/-! ### Emission (R35, R36, R136) -/

/-- A piece of a result: consecutive words of one kind (R136), from the word numbered `off`. -/
structure Piece where
  off : Nat
  fmt : BitVec 3
  words : List Word
  deriving DecidableEq, Repr

def Out.fmtWord : Out → Option (BitVec 3 × Word)
  | .none => Option.none
  | .null => some (7, nullWord)
  | .data f w => some (f, w)

/-- Cut a result into pieces of at most 32 words (R136). A control word other than NULL is a piece of its own
(R29). -/
def pieces : Nat → List Out → List Piece
  | _, [] => []
  | off, o :: os =>
    match o.fmtWord with
    | Option.none => pieces (off + 1) os
    | some (f, w) =>
      match pieces (off + 1) os with
      | [] => [⟨off, f, [w]⟩]
      | p :: ps =>
        if p.off = off + 1 ∧ p.fmt = f ∧ p.words.length < 32 ∧ (f = 7 → w = nullWord ∧ p.words.headD 0 = nullWord) then ⟨off, f, w :: p.words⟩ :: ps
        else ⟨off, f, [w]⟩ :: p :: ps

/-- The tokens of one emission to a target, cut where R34 and RUN1 cut them. -/
def Task.cut (t : Task) (run1 : Bool) (tag : Tag) (ws : List Word) : List Token :=
  let rho := ((t.block? tag.blk).map (·.rho)).getD 1
  if singleIteration tag.fmt ws then [⟨tag, ws⟩]
  else if run1 || decide (1 < rho) then singles tag ws else [⟨tag, ws⟩]

/-- Tokens on their way from a source, with the instances that emitted each. -/
def Task.flights (t : Task) (src : Site) (oq : Nat) (emitter? : Option Emitter) (toks : List Token) : List Flight :=
  toks.mapIdx fun j k => ⟨t.id, src, t.siteOf k.tag.blk k.tag.inst k.tag.iter, oq, k, none, emitter?.map fun e => e.from' j⟩

/-- Tokens leave a source for the network, sharing one output-queue entry (R44). -/
def State.route (s : State) (id : Nat) (src : Site) (oq : Nat) (emitter? : Option Emitter) (toks : List Token) : State :=
  match s.task? id with
  | none => s
  | some t => s.pushAll ((t.flights src oq emitter? toks).map Instr.tokenRoute)

/-- One emission: a run under a tag to a target of a block, under a tag action (R35). PARENT on a context
with no parent faults the task (R36). -/
def State.emitTo (s : State) (id : Nat) (src : Site) (oq : Nat) (emitter? : Option Emitter) (tact : Tact) (from' : Tag)
    (blk inst : BitVec 7) (port : BitVec 2) (fmt : BitVec 3) (ws : List Word) : State :=
  match s.task? id with
  | none => s
  | some t =>
    let new : Tag := { from' with blk := blk, inst := inst, port := port, rdir := none, fmt := fmt }
    match tact with
    | .child =>
      let kid : Tag := { new with iter := 0, path := 0, pdep := 0 }
      s.push (.contextGrant ⟨id, from', blk, none, t.flights src oq emitter? (t.cut false kid ws), false⟩)
    | .parent =>
      match (t.context? from'.ctx).bind (·.parent) with
      | some p =>
        let up : Tag := { new with ctx := p.ctx, iter := p.iter, path := p.path, pdep := p.pdep }
        s.route id src oq emitter? (t.cut false up ws)
      | none => s.raiseIll id src from' 0x10
    | _ => s.route id src oq emitter? (t.cut (tact == .run1) (new.act tact) ws)

/-- Emit one piece to one target field, whose words the given instances gave; none is 0x1FF (R87). -/
def State.emitPieceBy (s : State) (e : Emitter) (g : Firing) (oq : Nat) (tact : Tact) (tag : Tag) (t : BitVec 9) (p : Piece) : State :=
  if t = noTarget then s
  else s.emitTo g.task g.site oq (some (e.from' p.off)) tact { tag with iter := tag.iter + BitVec.ofNat 12 p.off } tag.blk (targetInst t)
    (targetPort t) p.fmt p.words

/-- The instances that give the words of a result under a tag, one after another. -/
def Tag.emitter (tag : Tag) : Emitter := ⟨⟨tag.blk, tag.ctx, tag.iter⟩, true⟩

/-- One instance, that of a tag, gives all words of a result. -/
def Tag.soleEmitter (tag : Tag) : Emitter := ⟨⟨tag.blk, tag.ctx, tag.iter⟩, false⟩

def State.emitPiece (s : State) (g : Firing) (oq : Nat) (tact : Tact) (tag : Tag) (t : BitVec 9) (p : Piece) : State :=
  s.emitPieceBy (Tag.emitter tag) g oq tact tag t p

/-- Emit pieces in order, each to every target in order, in one output-queue entry (R136). -/
def State.emitPieces (s : State) (e : Emitter) (g : Firing) (oq : Nat) (tact : Tact) (tag : Tag) (targets : List (BitVec 9))
    (outs : List Out) : State :=
  (pieces 0 outs).foldl (fun s p => targets.foldl (fun s t => s.emitPieceBy e g oq tact tag t p) s) s

/-- Emit a result, one word for each iteration, in an output-queue entry of its own. -/
def State.emitOuts (s : State) (g : Firing) (tact : Tact) (tag : Tag) (targets : List (BitVec 9)) (outs : List Out) :
    State :=
  s.freshen.emitPieces (Tag.emitter tag) g s.fresh tact tag targets outs

/-- Emit a result of one instance, that of `own`, under another tag. -/
def State.emitSole (s : State) (own : Tag) (g : Firing) (tact : Tact) (tag : Tag) (targets : List (BitVec 9)) (outs : List Out) :
    State :=
  s.freshen.emitPieces (Tag.soleEmitter own) g s.fresh tact tag targets outs

/-- Emit a control token of a given run at one iteration to every target in order. -/
def State.emitControl (s : State) (g : Firing) (tact : Tact) (tag : Tag) (targets : List (BitVec 9)) (fmt : BitVec 3)
    (ws : List Word) : State :=
  let oq := s.fresh
  targets.foldl (fun s t => s.emitPiece g oq tact tag t ⟨0, fmt, ws⟩) s.freshen

/-- A live child under a request's key (R51). -/
def Task.childOf (t : Task) (r : CtxRequest) : Option Context :=
  t.contexts.find? fun c => c.key == r.target && (match c.parent with
    | some p => p.ctx == r.parent.ctx && p.iter == r.parent.iter
    | none => false)

/-! ### Outstanding operations (R217, R341) -/

def Task.op? (t : Task) (op : Nat) : Option OpRec := t.ops.find? fun o => o.id == op
def OpRec.at (o : OpRec) (j : Nat) : OpWord := o.words.getD j ⟨.done, 0, [], [], 0, [], 0, false, 0⟩
def State.op? (s : State) (id op : Nat) : Option (Task × OpRec) :=
  (s.task? id).bind fun t => (t.op? op).map fun o => (t, o)
def State.withOp (s : State) (id op : Nat) (f : OpRec → OpRec) : State :=
  s.withTask id fun t => { t with ops := modifyWhere (fun o => o.id == op) f t.ops }
def State.withOpWord (s : State) (id op j : Nat) (f : OpWord → OpWord) : State :=
  s.withOp id op fun o => { o with words := o.words.modify j f }
/-- A word ends without results, where its request has faulted the task. -/
def State.endWord (s : State) (id op j : Nat) : State := s.withOpWord id op j fun w => { w with stage := .done, dropped := true }
def State.dropOp (s : State) (id op : Nat) : State :=
  s.withTask id fun t => { t with ops := t.ops.filter fun o => o.id != op }
def OpRec.finished (o : OpRec) : Bool := o.words.all fun w => w.stage == .done

/-- Begin an outstanding operation of a set: its number and the state that holds it. -/
def State.beginOp (s : State) (i : Instr) (g : Firing) (words : List OpWord) : Nat × State :=
  match s.task? g.task with
  | none => (0, s)
  | some t =>
    (t.nextOp, s.withTask g.task fun t =>
      { t with ops := t.ops ++ [⟨t.nextOp, g, i, words⟩], nextOp := t.nextOp + 1 })

/-! ### Engine commands (R409, R410, R440) -/

/-- The engine that serves an instruction, in the order of R334. -/
def engineOf : Instr → Option Nat
  | .copy _ => some 0
  | .gather _ | .scatter _ => some 1
  | .allreduce _ | .allgather _ | .reducescatter _ | .broadcast _ | .remwr _ | .rematom _ => some 2
  | _ => none

/-- The instructions whose words are commands of the engine port (R410, R440). -/
def isCommand : Instr → Bool
  | .lwopen _ | .lwclose _ | .epopen _ | .epstep _ | .epend _ | .rwsend _ | .jcfg _ | .lvset _ | .jstat _ => true
  | i => (engineOf i).isSome

/-! ### The current item -/

def State.firing? (s : State) : Option Firing :=
  match s.cur with
  | some (.firing g, _) => some g
  | _ => none

/-- The meaning of an instruction with an encoding: what it does with the set being fired. -/
def withFiring (s : State) (k : Firing → State → State) : Result :=
  match s.firing? with
  | some g => .next (k g s)
  | none => .fault .noFiring

/-- The meaning of an event: a next state. -/
def happen (s : State) : Result := .next s

end Sys2Proof.Machine
end

