-- ==== Sys2Proof/Machine/Struct.lean ====
section
/-!
DEFINITION. Structure words that change state (R258, R259, R261, R263, R306).
-/

namespace Sys2Proof.Machine

/-- A word becomes empty: its field holds what nobody specifies (R258). -/
def State.clearWord (s : State) (a : Nat) : State :=
  ((s.emptyWord a).setField a (Config.clearedField s.fresh)).freshen

/-- A word's reader list changes (R258): an empty deferred word becomes empty, and the field of any other holds
the index of its first reader entry, or all ones when no reader waits. -/
def State.setReaders (s : State) (w : WordState) (rs : List Reader) : State :=
  if w.code = .deferred ∧ rs = [] then s.clearWord w.addr
  else
    let s1 := s.setWord { w with readers := rs }
    match rs with
    | [] => s1.setField w.addr 0xFFFFFFFF
    | r :: _ => if w.readers.head? = some r then s1
                else (s1.setField w.addr (Config.readerEntryIndex s.fresh)).freshen

/-- A word becomes provisional under an owner and keeps its readers (R261, R306). -/
def State.markWord (s : State) (a : Nat) (o : Owner) (pend : Word) : State :=
  let rs := ((s.wordAt a).map (·.readers)).getD []
  let fmt := ((s.wordAt a).map (·.fmt)).getD 0
  let s1 := s.setWord ⟨a, .provisional, fmt, some o, pend, rs⟩
  if rs.isEmpty then s1.setField a 0xFFFFFFFF else s1

/-- A provisional word whose mark is withdrawn returns to deferred if its list holds a reader, and to empty
otherwise (R263). -/
def State.unmark (s : State) (a : Nat) : State :=
  match s.wordAt a with
  | some w =>
    if w.code = .provisional then
      (if w.readers.isEmpty then s.clearWord a else s.setWord { w with code := .deferred, owner := none, pend := 0 })
    else s
  | none => s

/-- A task's own mark of a word is withdrawn; the mark of another writer stays. -/
def State.unmarkOwn (s : State) (id a : Nat) : State :=
  if (s.wordAt a).bind (·.owner) = some (.task id) then s.unmark a else s

/-- The tower whose structure units serve an address (R259). -/
def structTower (a : Nat) : Nat :=
  match regionOf a with
  | .dram k => k
  | .shared k _ => k
  | _ => 0

/-- Reader entries of a tower's pool are taken or freed (R259). -/
def State.freeEntries (s : State) (a n : Nat) : State :=
  s.withTower (structTower a) fun t => { t with poolUsed := t.poolUsed - n }

/-- The reply to a reader leaves its structure unit. -/
def State.answerReader (s : State) (w : Word) (fmt : BitVec 3) (r : Reader) : State :=
  (s.withOpWord r.task r.op r.j fun x => { x with stage := .sent }).push (.bankReply r.task r.op r.j ⟨w, 0, 0, fmt, []⟩)

/-- A word becomes full; its readers receive it in list order and their entries are freed (R263). -/
def State.makeFull (s : State) (a : Nat) (w : Word) (fmt : BitVec 3) : State :=
  let rs := ((s.wordAt a).map (·.readers)).getD []
  rs.foldl (fun s r => s.answerReader w fmt r) (((s.fullWord a fmt).setField a w).freeEntries a rs.length)

end Sys2Proof.Machine
end

