-- ==== Sys2Proof/Machine/Join.lean ====
section
/-!
DEFINITION. The entries of a join engine: where their step records lie (R436), and how an entry is cleared and
freed (R435, R436, R441, R447, R450).
-/

namespace Sys2Proof.Machine

/-- The counters of R452, by their selectors. -/
inductive JoinCounter where
  | opened | closed | released | records | dropped | truncated | stale | abandoned | orphans | discarded | made
  deriving DecidableEq, Repr

def JoinCounter.index : JoinCounter → Nat
  | .opened => 0
  | .closed => 1
  | .released => 2
  | .records => 3
  | .dropped => 4
  | .truncated => 5
  | .stale => 6
  | .abandoned => 7
  | .orphans => 8
  | .discarded => 9
  | .made => 10

/-- A counter rises, modulo 2^32 (R452). -/
def State.joinCount (s : State) (k : Nat) (c : JoinCounter) (n : Nat) : State :=
  s.withJoin k fun e => { e with counters := e.counters.modify c.index fun x => x + BitVec.ofNat 32 n }

def State.episode? (s : State) (k entry : Nat) : Option Episode := (s.tower k).join.episodes.find? fun x => x.entry == entry
def State.withEpisode (s : State) (k entry : Nat) (f : Episode → Episode) : State :=
  s.withJoin k fun e => { e with episodes := modifyWhere (fun x => x.entry == entry) f e.episodes }

/-- The virtual address of word `w` of step record `t` of an entry (R436). -/
def JoinEngine.recordVa (e : JoinEngine) (entry t w : Nat) : Nat := e.base.toNat + entry * 2 ^ (e.logl.toNat + 5) + 32 * t + 4 * w

/-- The steps an entry has room for. -/
def JoinEngine.room (e : JoinEngine) : Nat := 2 ^ e.logl.toNat

/-- The physical address of a word of an entry's records, through the owner's translation. -/
def State.recordPa (s : State) (k entry t w : Nat) (write : Bool) : Translated :=
  let e := (s.tower k).join
  s.translate e.asid (e.recordVa entry t w) write none

/-- A reward slot becomes empty (R447). Readers that wait on it ask for it again. -/
def State.emptySlot (s : State) (a : Nat) : State :=
  match s.wordAt a with
  | some w =>
    let again := fun (s : State) (r : Reader) =>
      (s.withOpWord r.task r.op r.j fun x => { x with stage := .sent }).push (.structRequest r.task r.op r.j)
    w.readers.foldl again ((s.freeEntries a w.readers.length).clearWord a)
  | none => s

/-- Every reward slot of an entry becomes empty: the failure of the first that the owner's tables do not reach, if there is
one, and the state. -/
def State.emptySlots (s : State) (k entry t : Nat) : Nat → Option (BitVec 8) × State
  | 0 => (none, s)
  | n + 1 =>
    match s.recordPa k entry t 4 true with
    | .ok a => (s.emptySlot a).emptySlots k entry (t + 1) n
    | e => (some (if e = .prot then F_PROT else F_XLATE), (s.emptySlots k entry (t + 1) n).2)

/-- A failure on the store is logged (R436, R485). -/
def State.logStore (s : State) (k entry : Nat) (code : BitVec 8) : State :=
  s.logEvent 0x0C 0x3F (BitVec.ofNat 16 entry ++ (0 : BitVec 6) ++ BitVec.ofNat 2 k ++ code) 0

/-- An entry is cleared and free; a close sequence number it holds is resolved (R447, R450). An entry whose clearing fails on the
store is freed as abandoned, and the failure is logged unless one is already (R436). -/
def State.clearEpisode (s : State) (k entry : Nat) (abandoned logged : Bool) : State :=
  match s.episode? k entry with
  | none => s
  | some x =>
    match s.emptySlots k entry 0 (s.tower k).join.room with
    | (fault, s1) =>
      let s2 := match fault with
        | some code => if logged then s1 else s1.logStore k entry code
        | none => s1
      (if abandoned || fault.isSome then s2.joinCount k .abandoned 1 else s2).withJoin k fun e => { e with
        episodes := e.episodes.filter fun y => y.entry != entry
        unresolved := if x.st = .open then e.unresolved else e.unresolved.filter fun q => q != x.seq }

/-- An entry is cleared and freed. -/
def State.freeEpisode (s : State) (k entry : Nat) : State := s.clearEpisode k entry false false

/-- An entry is freed as abandoned. -/
def State.abandon (s : State) (k entry : Nat) : State := s.clearEpisode k entry true false

/-- A failure on the store is logged and its entry freed as abandoned (R436, R485). -/
def State.storeFault (s : State) (k entry : Nat) (code : BitVec 8) : State := (s.logStore k entry code).clearEpisode k entry true true

/-- Bindings end without EPEND: their open episodes are abandoned (R441, R447, R451). -/
def State.unbindEpisodes (s : State) (k : Nat) (mine : Nat × BitVec 12 → Bool) : State :=
  ((s.tower k).join.episodes.filter fun x => x.st == .open && x.bound.any mine).foldl (fun s x => s.abandon k x.entry) s

/-- The engine is disabled: every live entry is freed without release, as abandoned (R435). -/
def State.disableJoin (s : State) (k : Nat) : State :=
  (((s.tower k).join.episodes.map (·.entry)).foldl (fun s e => s.abandon k e) s).withJoin k fun e => { e with en := false }

end Sys2Proof.Machine
end

