-- ==== Sys2Proof/Machine/Issue.lean ====
section
/-!
DEFINITION. What a step takes up: the order of tokens on one channel (R38), and which complete sets may
claim issue (R44, R45, R188).
-/

namespace Sys2Proof.Machine

def Item.flight? : Item → Option Flight
  | .event e => e.flight?
  | .firing _ => none

/-- Two tokens of one source, destination and context keep their order (R38). -/
def sameChannel (f g : Flight) : Bool :=
  f.task == g.task && f.src == g.src && f.dst == g.dst && f.tok.tag.ctx == g.tok.tag.ctx

/-- Two tokens that have reached the same instruction's side port, past the network (R243, R397). -/
def samePort (f g : Flight) : Bool :=
  f.task == g.task && f.dst == g.dst && f.tok.tag.blk == g.tok.tag.blk && f.tok.tag.inst == g.tok.tag.inst &&
    f.tok.tag.ctx == g.tok.tag.ctx

/-- A token waits in the holding place of its port for a header latch (R175). -/
def Item.inHolding : Item → Bool
  | .event (.headerLatchFreed _) => true
  | _ => false

/-- A request for a live child context holds tokens of a channel back that its emission came before (R38, R51). -/
def State.requestAhead (s : State) (f : Flight) (r : CtxRequest) : Bool :=
  r.task == f.task && (match s.task? r.task with
    | some t => match t.childOf r with
      | some c => c.ctx == f.tok.tag.ctx && r.sends.any fun g => g.src == f.src && g.dst == f.dst
      | none => false
    | none => false)

/-- An earlier token of the same channel is still on its way. Tokens at a side port keep their order of arrival, and
hold no token back that is still on its way; nor does a header in the holding place of its port (R175). -/
def State.channelHeld (s : State) (k : Nat) (it : Item) : Bool :=
  match it with
  | .event (.streamDataArrival f) => (s.agenda.take k).any fun x => match x with
    | .event (.streamDataArrival g) => samePort f g
    | _ => false
  | .event (.sparseCoordinate f) => (s.agenda.take k).any fun x => match x with
    | .event (.sparseCoordinate g) => samePort f g
    | _ => false
  | _ => match it.flight? with
    | none => false
    | some f => (s.agenda.take k).any fun x => match x with
      | .event (.streamDataArrival _) | .event (.sparseCoordinate _) => false
      | .event (.contextGrant r) => s.requestAhead f r
      | _ => !x.inHolding && (match x.flight? with
        | some g => sameChannel f g
        | none => false)

/-- The requests for contexts that wait in a hoop, in arrival order, with the places they have in the agenda (R207). -/
def State.requestsOf (s : State) (h : Nat) : List (Nat × CtxRequest) :=
  (s.agenda.zipIdx.filterMap fun x => match x.1 with
    | .event (.contextGrant r) => match s.task? r.task with
      | some t => if t.hoop = h then some (x.2, r) else none
      | none => none
    | _ => none)

/-- The requests beyond the 512 that the allocator's queue holds. -/
def State.requestsOver (s : State) (h : Nat) : List (Nat × CtxRequest) := (s.requestsOf h).drop 512

/-- The entries of a site's output queue in use (R44): the emissions that have not left it. Requests for
contexts beyond those that the allocator's queue holds wait in the output queue too (R207). -/
def State.outputQueue (s : State) (id : Nat) (site : Site) : Nat :=
  let routed := s.agenda.filterMap fun x => match x with
    | .event (.tokenRoute f) => if f.task == id && f.src == site then some f.oq else none
    | _ => none
  let waiting := match s.task? id with
    | some t => (s.requestsOver t.hoop).flatMap fun r => (r.2.sends.filter fun f => f.task == id && f.src == site).map (·.oq)
    | none => []
  (routed ++ waiting).eraseDups.length

/-- The number of leading iterations of a set that are admitted (R188). -/
def State.admittedPrefix (s : State) (t : Task) (g : Firing) (j : Nat) : Nat → Nat
  | 0 => 0
  | n + 1 => if s.admitted t (g.instAt j) then 1 + s.admittedPrefix t g (j + 1) n else 0

/-- How old a set's iteration is in its window (R45). -/
def Task.age (t : Task) (g : Firing) : Nat :=
  match t.window? g.tag.blk g.tag.ctx with
  | some w => w.offset g.tag.iter
  | none => 0

/-- The complete sets of a site, with the places they have in the agenda. -/
def setsWithPlaces (task : Nat) (site : Site) (k : Nat) : List Item → List (Nat × Firing)
  | [] => []
  | .firing g :: xs => if g.task = task ∧ g.site = site then (k, g) :: setsWithPlaces task site (k + 1) xs
                       else setsWithPlaces task site (k + 1) xs
  | .event _ :: xs => setsWithPlaces task site (k + 1) xs

/-- Begin a step on the item at `k`. -/
def State.take (s : State) (k : Nat) (it : Item) : State :=
  { s with agenda := s.agenda.eraseIdx k, cursor := 0, cur := some (it, k) }

/-- Which item a step takes: the next choice, or the item at the cursor. -/
def State.select (s : State) : Nat × State :=
  match s.choices with
  | [] => (s.cursor, s)
  | c :: cs => (c, { s with choices := cs })

/-- The state from which the package's clock ticks when nothing else can happen. -/
def State.idle (s : State) : State := { s with cursor := 0, cur := none }

/-! ### A program placed from outside (the fixed name withFetchWord) -/

/-- A task as placement leaves it (R322): everything empty. -/
def Task.new (id tcbVa : Nat) (tcb : Tcb) (tower hoop : Nat) (quads : List Nat) : Task where
  id := id
  tcbVa := tcbVa
  tcb := tcb
  tower := tower
  hoop := hoop
  quads := quads
  phase := .fetching
  frozen := .none
  readyTick := 0
  placedAt := 0
  images := []
  blocks := []
  account := tcb.budget * 2 ^ tcb.px
  schedule := false
  delivered := 0
  returned := 0
  budget := tcb.budget
  packets := tcb.budget
  allow := tcb.topup
  granted := 0
  marks := 0
  reissue := false
  resume := 0
  tacks := 0
  resumeIn := 0
  tacksIn := 0
  shortf := 0
  slots := 0
  contexts := []
  reserve := 0
  nextSeq := 0
  windows := []
  insts := []
  squashes := []
  waiting := []
  filters := []
  latches := []
  accums := []
  loops := []
  staged := []
  stagedOps := []
  commits := 0
  ops := []
  nextOp := 1
  streams := []
  barriers := []
  phases := ⟨0, [], [], 0⟩
  flags := 0
  banks := []
  launches := []
  receivers := []
  rowsSent := false
  quiet := 0
  entryNext := 0
  ended := false
  cause := none
  tacking := none
  failing := none
  sparse := none
  saved := none

/-- The TCB of the task that `withFetchWord` places: one quadrant, the matrix array, privilege, and no
usable segment. -/
def fetchTcb : Tcb where
  block := 0
  ancx := 0
  ancy := 0
  mtx := true
  priv := true
  shortp := false
  pmode := false
  prio := 0
  qaff := 0
  qcnt := 1
  hoopaff := 0
  px := 0
  budget := 1
  topup := 0
  progress := 0
  hiwat := 32
  ctxres := 1
  key := 0
  asid := 0
  spillsz := 0
  spill := 0
  save := 0
  sched := 0
  widths := [64]
  succ := []
  segs := List.replicate 16 ⟨0, 0, 0, false, false, 0⟩

def siteOfClass : PlaceClass → Site
  | .element | .none => .elem 0 0
  | .selvage => .tile 0
  | .matrix => .issue
  | .engine => .port

/-- A one-word operand of zeros that a port accepts. -/
def zeroOperand (tag : Tag) (acc : Accept) : Token :=
  if acc.fmts = 0 then
    (if acc.kinds.getLsbD 4 then ⟨{ tag with fmt := 7 }, [4, 0]⟩
     else if acc.kinds.getLsbD 2 then ⟨{ tag with fmt := 7 }, [2]⟩
     else ⟨{ tag with fmt := 7 }, [3]⟩)
  else
    let f := (List.range 7).find? fun f => acc.fmts.getLsbD f
    ⟨{ tag with fmt := BitVec.ofNat 3 (f.getD 0) }, [0]⟩

/-- The complete set of an instruction with every token port holding zeros. -/
def zeroFiring (id : Nat) (i : Instr) : Firing :=
  let tag : Tag := ⟨0, 0, 0, 0, 0, 0, 0, 0, none⟩
  let sole := i matches .merge _
  let side := (i matches .oploadSparse _) || (i matches .sopenWrite _ _) || (i matches .sindWrite _ _)
  let port := fun (p : BitVec 2) => if i.takesToken p then some (zeroOperand tag (i.accepts p)) else none
  ⟨id, siteOfClass i.spec.place, tag, 1, port 0, if sole then none else port 1, if side then none else port 2, port 3, 0, [], 1, .unit, [], none⟩

/-- A task that holds one placed word, with the base instance of its one window. -/
def fetchTask (id : Nat) (w : Word) (site : Site) : Task :=
  { Task.new id 0 fetchTcb 0 0 [0] with
    phase := .running
    account := 2 ^ 32
    blocks := [⟨0, 1, 1, none, 0, 0, [⟨.keep, none, false⟩], [⟨w, 0, site, 0⟩], 1, false⟩]
    contexts := [⟨0, 0, none, 0, none, [], 0, true⟩]
    nextSeq := 2
    windows := [⟨0, 0, 0, 1⟩]
    insts := [⟨⟨0, 0, 0⟩, 1, 0, 0, false, none, [], 0, [], 0, 0⟩] }

/-- Place the word and put its complete set where the next step takes it up. -/
def State.placeWord (s : State) (w : Word) : State :=
  let id := s.nextTask
  let tag : Tag := ⟨0, 0, 0, 0, 0, 0, 0, 0, none⟩
  let i? := (decode w 0).toOption
  let g := match i? with
    | some i => zeroFiring id i
    | none => ⟨id, .elem 0 0, tag, 1, none, none, none, none, 0, [], 1, .unit, [], none⟩
  { s with
    agenda := .firing g :: s.agenda
    cursor := 0
    choices := []
    tasks := s.tasks ++ [fetchTask id w g.site]
    nextTask := id + 1 }

end Sys2Proof.Machine
end

