-- ==== Sys2Proof/Machine/Operands.lean ====
section
/-!
DEFINITION. The operands of a matched set and the firing of its words: literals (R85, R135), NULL words
(R32), predicates (R134, R273), the word loop of R135 and the emission of its results (R136).
-/

namespace Sys2Proof.Machine

/-- Word `j` of a token: a NULL word, or a word of the token's format. A control token other than NULL
gives its control word under format 7 (R28, R272). -/
def tokenOut (t : Option Token) (j : Nat) : Out :=
  match t with
  | none => .none
  | some t =>
    if t.tag.fmt = 7 then
      (if controlKind t.words = 1 then .null else .data 7 (t.words.headD 0))
    else .data t.tag.fmt (t.words.getD j 0)

/-- The format of the literal on a port: that which the instruction's description gives for the port (R85). Where a port
takes words of several formats, ACAS's literal has the format of its C token, and any other is I32 (log entry 126). -/
def literalFmt (i : Instr) (g : Firing) (port : BitVec 2) : BitVec 3 :=
  match i, g.c with
  | .acas _, some t | .atomsc _ .acas, some t => t.tag.fmt
  | _, _ =>
    let fmts := (i.accepts port).fmts
    if fmts.getLsbD 0 then 0 else BitVec.ofNat 3 (((List.range 7).find? fun k => fmts.getLsbD k).getD 0)

/-- Word `j` of a port. A literal supplies the same word to every iteration (R135). -/
def operand (i : Instr) (g : Firing) (port : Nat) (j : Nat) : Out :=
  let f := i.fields
  match port with
  | 0 => if f.la then .data (literalFmt i g 0) f.lit else tokenOut g.a j
  | 1 => if f.lb then .data (literalFmt i g 1) f.lit else tokenOut g.b j
  | 2 => tokenOut g.c j
  | _ => tokenOut g.p j

def Out.isNull : Out → Bool
  | .null => true
  | _ => false

/-- The word of an operand. -/
def Out.word : Out → Word
  | .data _ w => w
  | _ => 0

/-- The format of an operand. -/
def Out.fmt : Out → BitVec 3
  | .data f _ => f
  | .null => 7
  | .none => 0

/-- A NULL word on any port (R32). -/
def anyNull (i : Instr) (g : Firing) (j : Nat) : Bool :=
  (operand i g 0 j).isNull || (operand i g 1 j).isNull || (operand i g 2 j).isNull || (operand i g 3 j).isNull

/-- The predicate is false (R134). A LOCK token counts as true (R273). -/
def predicateFalse (i : Instr) (g : Firing) (j : Nat) : Bool :=
  i.fields.pr && (match operand i g 3 j with
    | .data 7 _ => false
    | .data _ w => w == 0
    | _ => false)

/-- Word `j` performs: no NULL word, no false predicate. -/
def performs (i : Instr) (g : Firing) (j : Nat) : Bool := !anyNull i g j && !predicateFalse i g j

/-- What one word of a firing does. -/
abbrev WordStep := Nat → State → Except State (State × Out)

/-- The words of a set in ascending order (R46). A word that stops the task stops the set. -/
def wordLoop (f : WordStep) (s : State) (j : Nat) : Nat → Except State (State × List Out)
  | 0 => .ok (s, [])
  | n + 1 =>
    match f j s with
    | .error s1 => .error s1
    | .ok (s1, o) =>
      match wordLoop f s1 (j + 1) n with
      | .error s2 => .error s2
      | .ok (s2, os) => .ok (s2, o :: os)

/-- A NULL result: the word debits T (R32). -/
def nullStep (g : Firing) (s : State) : Except State (State × Out) :=
  match s.fireWord g .t 1 with
  | .ok s1 => .ok (s1, .null)
  | .error s1 => .error s1

/-- The word loop of R135 with an instruction's own operation, which answers its result and flags. -/
def computeStep (i : Instr) (g : Firing) (fmt : BitVec 3) (op : Word → Word → Word → Word × BitVec 5) : WordStep :=
  fun j s =>
    if performs i g j then
      match s.fireWord g i.spec.cost i.spec.passes with
      | .error s1 => .error s1
      | .ok s1 =>
        match op (operand i g 0 j).word (operand i g 1 j).word (operand i g 2 j).word with
        | (w, fl) => .ok (s1.raiseFlags g.task (g.instAt j) fl, .data fmt w)
    else nullStep g s

/-- Emit the results of a set to t0 and then t1 (R136), or leave the state in which the set stopped. -/
def emitResult (i : Instr) (g : Firing) (r : Except State (State × List Out)) : State :=
  match r with
  | .ok (s, outs) => s.emitOuts g i.fields.tact g.tag [i.fields.t0, i.fields.t1] outs
  | .error s => s

/-- How many of `n` words fire before anything else happens: a set can halt between word firings (R139). When it does is
one of the model's choices. -/
def State.wordsNow (s : State) (n : Nat) : Nat × State :=
  if n ≤ 1 then (n, s)
  else match s.pick n with
    | (k, s1) => (n - k, s1)

/-- A partly fired set keeps its place and what its words have given. -/
def State.halfFired (s : State) (g : Firing) : State :=
  match s.cur with
  | some (_, k) => { s with agenda := s.agenda.take k ++ .firing g :: s.agenda.drop k, cur := none }
  | none => s.pushFiring g

/-- The words of a set fire from its next word on; after the last of them its results leave (R46, R139). -/
def fireWords (f : WordStep) (g : Firing) (s : State) (emit : State → List Out → State) : State :=
  match s.wordsNow (g.n - g.fired.length) with
  | (k, s0) => match wordLoop f s0 g.fired.length k with
    | .error s1 => s1
    | .ok (s1, os) =>
      if g.fired.length + k < g.n then s1.halfFired { g with fired := g.fired ++ os } else emit s1 (g.fired ++ os)

/-- A whole compute firing (R135, R136). -/
def compute (i : Instr) (fmt : BitVec 3) (op : Word → Word → Word → Word × BitVec 5) (g : Firing) (s : State) : State :=
  fireWords (computeStep i g fmt op) g s fun s outs => s.emitOuts g i.fields.tact g.tag [i.fields.t0, i.fields.t1] outs

/-- An integer operation on ports A, B and C: its result is I32 and it raises no flag (R137, R141). -/
def integerOp (i : Instr) (op : Word → Word → Word → Word) (s : State) : Result :=
  withFiring s fun g s => compute i 0 (fun a b c => (op a b c, 0)) g s

/-- A floating-point operation with an F32 result (R151). -/
def floatOp (i : Instr) (op : Word → Word → Word → Word × BitVec 5) (s : State) : Result :=
  withFiring s fun g s => compute i 1 op g s

/-- A floating-point test with an I32 result (R151). -/
def floatTest (i : Instr) (op : Word → Word → Word → Word × BitVec 5) (s : State) : Result :=
  withFiring s fun g s => compute i 0 op g s

/-- A firing that forwards or forms one word for each word, at one debit of its class (R181). -/
def forwardStep (i : Instr) (g : Firing) (f : Nat → Out) : WordStep := fun j s =>
  if performs i g j then
    match s.fireWord g i.spec.cost i.spec.passes with
    | .error s1 => .error s1
    | .ok s1 => .ok (s1, f j)
  else nullStep g s

/-- A trigger or an operand that is a control token other than NULL forwarded whole (R182, R453). -/
def controlToken (t : Option Token) : Option Token :=
  match t with
  | some t => if t.tag.fmt = 7 ∧ controlKind t.words ≠ 1 then some t else none
  | none => none

end Sys2Proof.Machine
end

