-- ==== Sys2Proof/Machine/Instances.lean ====
section
/-!
DEFINITION. What a squash, a retirement and an abort take away (R52, R192, R193, R203, R238, R248, R263,
R266, R275, R279, R282), the release of a lock, and the results of an operation whose words have all
finished (R136, R237).
-/

namespace Sys2Proof.Machine

/-! ### Locks (R272 to R275) -/

/-- The lock id word (R272). -/
def lockId (bank slot : Nat) : Word := BitVec.ofNat 32 (bank * 2 ^ 16 + slot)

/-- A free slot goes to its first waiter, whose request is answered. -/
def State.grantLock (s : State) (bank slot : Nat) (ws : List Reader) : State :=
  match ws with
  | [] => s
  | w :: rest =>
    let inst := match s.op? w.task w.op with
      | some (_, o) => o.firing.instAt w.j
      | none => (⟨0, 0, 0⟩ : InstKey)
    ({ s with locks := s.locks ++ [(⟨bank, slot, w.task, inst, rest⟩ : Lock)] }).push
      (.bankReply w.task w.op w.j ⟨lockId bank slot, 0, 0, 7, []⟩ : Instr)

/-- A lock is released and its slot granted to its first waiter. -/
def State.freeLock (s : State) (l : Lock) : State :=
  ({ s with locks := s.locks.filter fun m => !(m.bank == l.bank && m.slot == l.slot) }).grantLock l.bank l.slot l.waiters

/-! ### Results of operations (R136, R237) -/

/-- Emit results to t0 and, in a second column, to t1: each piece to t0 and then t1 before the next. -/
def State.emitColumns (s : State) (g : Firing) (tact : Tact) (t0 t1 : BitVec 9) (os0 os1 : List Out) : State :=
  let oq := s.fresh
  let ps0 := pieces 0 os0
  let ps1 := pieces 0 os1
  (List.range (Nat.max ps0.length ps1.length)).foldl (fun s k =>
    let s1 := match ps0[k]? with
      | some p => s.emitPiece g oq tact g.tag t0 p
      | none => s
    match ps1[k]? with
    | some p => s1.emitPiece g oq tact g.tag t1 p
    | none => s1) s.freshen

/-- What a word of an operation gives a column: nothing once it is dropped. -/
def OpWord.column (w : OpWord) (c : Nat) : Out := if w.dropped then .none else w.outs.getD c .none

/-- The TRAPV token of an expired queue request (R281): when the word has an expiry recorded it goes to the trap
target, under the iteration of its first result. -/
def State.emitTrap (s : State) (g : Firing) (trapt : BitVec 9) (iter : BitVec 12) (w : OpWord) : State :=
  if w.dropped || w.data.length != 3 then s
  else s.freshen.emitPiece g s.fresh .keep { g.tag with iter := iter } trapt ⟨0, 7, 6#32 :: w.data⟩

/-- QGET at iteration i emits its entry words at consecutive iterations from E × i, each request on its own (R280,
R281). -/
def State.emitEntry (s : State) (g : Firing) (f : SForm) (j : Nat) (w : OpWord) : State :=
  let e := 2 ^ queueLe f.lit
  let base : BitVec 12 := BitVec.ofNat 12 ((g.tag.iter.toNat + j) * e)
  (s.emitSole { g.tag with iter := g.tag.iter + BitVec.ofNat 12 j } g .keep { g.tag with iter := base } [f.t0]
    ((List.range e).map fun k => w.column k)).emitTrap g (queueTrapt f.lit) base w

/-- The results of a finished operation: QPUT's at the window's index (R279), QGET's nothing more than its words have
emitted, QSEND's control token after its blocks (R163), the region of each word of ACC READ and
PEEK (R403), and every other instruction's as the pieces of its columns. -/
def State.emitOp (s : State) (o : OpRec) (i : Instr) : State :=
  let g := o.firing
  match i with
  | .qput f =>
    let tag : Tag := { g.tag with iter := BitVec.ofNat 12 (g.tag.iter.toNat / 2 ^ queueLe f.lit) }
    (s.emitSole g.tag g .keep tag [f.t0] (o.words.map fun w => w.column 0)).emitTrap g (queueTrapt f.lit) tag.iter (o.at 0)
  | .qget _ => s
  | .qsend f =>
    match controlToken g.a with
    | some t => s.emitControl g f.tact g.tag [f.t0, f.t1] 7 t.words
    | none => s
  | .accRead f | .accPeek f =>
    (List.range o.words.length).foldl (fun s j =>
      let tag : Tag := { g.tag with iter := g.tag.iter + BitVec.ofNat 12 j }
      if (o.at j).dropped then s else s.emitSole tag g f.tact tag [f.t0, f.t1] (o.at j).outs) s
  | _ => s.emitColumns g i.fields.tact i.fields.t0 i.fields.t1 (o.words.map fun w => w.column 0) (o.words.map fun w => w.column 1)

/-- An operation whose words have all finished emits its results and is outstanding no longer (R237). -/
def State.finishOp (s : State) (id op : Nat) : State :=
  match s.op? id op with
  | none => s
  | some (_, o) =>
    if o.finished then
      ((s.active id).dropOp id op).emitOp o o.instr
    else s

/-- A word of an operation finishes with its results, and with it perhaps the operation. -/
def State.finishWord (s : State) (id op j : Nat) (outs : List Out) : State :=
  let s1 := s.withOpWord id op j fun w => { w with stage := .done, outs := outs }
  match s1.op? id op with
  | none => s1
  | some (_, o) =>
    (match o.instr with
     | .qget f => s1.emitEntry o.firing f j (o.at j)
     | _ => s1).finishOp id op

/-! ### What goes away -/

/-- Whether a token's iterations, from its base, are dead, one after another. -/
def Token.deadAt (dead : InstKey → Bool) (t : Token) (j : Nat) : Bool :=
  dead ⟨t.tag.blk, t.tag.ctx, t.tag.iter + BitVec.ofNat 12 j⟩

/-- The stretches of `n` places, from `j`, that satisfy `p`: their places and lengths. -/
def stretches (p : Nat → Bool) (j : Nat) : Nat → List (Nat × Nat)
  | 0 => []
  | n + 1 =>
    if p j then
      match stretches p (j + 1) n with
      | (k, m) :: rest => if k = j + 1 then (j, m + 1) :: rest else (j, 1) :: (k, m) :: rest
      | [] => [(j, 1)]
    else stretches p (j + 1) n

/-- The parts of a token that are left. -/
def liveParts (dead : InstKey → Bool) (t : Token) : List Token :=
  if singleIteration t.tag.fmt t.words then (if Token.deadAt dead t 0 then [] else [t])
  else (stretches (fun j => !Token.deadAt dead t j) 0 t.words.length).map fun r => t.part r.1 r.2

/-- Whether anything of a token is dead. -/
def anyDead (dead : InstKey → Bool) (t : Token) : Bool := (List.range t.span).any fun j => Token.deadAt dead t j

/-- Waiting tokens: what is left of them. -/
def liveWaits (dead : InstKey → Bool) (ws : List Wait) : List Wait :=
  ws.flatMap fun w => (liveParts dead w.tok).map fun k => { w with tok := k }

/-- A complete window returns to the matching store, its words held one by one (R162). -/
def windowWaits (g : Firing) : List Wait :=
  g.win.map fun w =>
    ⟨g.site, ⟨{ g.tag with iter := g.tag.iter + BitVec.ofNat 12 w.off, fmt := w.fmt, port := 0 }, [w.word]⟩, 0, true, none, g.src, none⟩

/-- What is left of a complete matched set: its live parts, and the held words of a window that has lost
some. -/
def liveFirings (dead : InstKey → Bool) (g : Firing) : List Firing × List Wait :=
  let alive := stretches (fun j => !dead (g.instAt j)) 0 g.n
  if g.win.isEmpty then (alive.map fun r => if r.2 = g.n then g else g.part r.1 r.2, [])
  else if alive = [(0, g.n)] then ([g], [])
  else ([], liveWaits dead (windowWaits g))

/-- The tokens that a set loses. -/
def lostTokens (dead : InstKey → Bool) (g : Firing) : Nat :=
  (g.tokens.filter fun t => anyDead dead t).length + ((windowWaits g).filter fun w => anyDead dead w.tok).length

/-- A token in an output queue without the words that squashed instances gave it (R140, R192): what is left of it. -/
def liveRoutes (out : InstKey → Bool) (f : Flight) : List Flight :=
  match f.emitter with
  | none => [f]
  | some e =>
    if singleIteration f.tok.tag.fmt f.tok.words then (if out e.key then [] else [f])
    else (stretches (fun j => !out (e.keyAt j)) 0 f.tok.words.length).map fun r =>
      if r.2 = f.tok.words.length then f else { f with tok := f.tok.part r.1 r.2, emitter := some (e.from' r.1) }

/-- The agenda with the dead taken out: what is left, the words that go back to the matching store, and the
number of tokens discarded. `out` names the uncommitted instances among the dead, whose output-queue entries go too. -/
def liveAgenda (id : Nat) (dead out : InstKey → Bool) : List Item → List Item × List Wait × Nat
  | [] => ([], [], 0)
  | x :: xs =>
    match liveAgenda id dead out xs with
    | (items, ws, n) =>
      match x with
      | .firing g =>
        if g.task = id then
          match liveFirings dead g with
          | (gs, back) => (gs.map Item.firing ++ items, back ++ ws, n + lostTokens dead g)
        else (x :: items, ws, n)
      | .event (.contextGrant r) =>
        if r.task = id && !r.entry && dead ⟨r.parent.blk, r.parent.ctx, r.parent.iter⟩ then (items, ws, n + r.sends.length)
        else (x :: items, ws, n)
      | .event (.tokenRoute f) =>
        if f.task = id then
          let left := liveRoutes out f
          (left.map (fun f => Item.event (.tokenRoute f)) ++ items, ws, if left = [f] then n else n + 1)
        else (x :: items, ws, n)
      | .event (.heldTokenAccept f) | .event (.spillSearch f) | .event (.headerLatchFreed f) | .event (.streamDataArrival f)
      | .event (.sparseCoordinate f) =>
        if f.task = id && Token.deadAt dead f.tok 0 then (items, ws, n + 1) else (x :: items, ws, n)
      | _ => (x :: items, ws, n)

/-- A word of an operation whose instance is gone (R232, R238, R257, R282): what has not left its site is
discarded; what waits in a queue or on a lock is withdrawn; a reader entry is to be cancelled; the rest, a table walk
too (R227), completes and is discarded. `withdrawn` says that the request waited in a queue or on a lock. -/
def OpWord.drop (w : OpWord) (withdrawn : Bool) : OpWord :=
  match w.stage with
  | .waiting | .held | .ready => { w with stage := .done, dropped := true }
  | .queued => if withdrawn then { w with stage := .done, dropped := true } else { w with dropped := true }
  | .walking | .sent | .reading | .done => { w with dropped := true }

/-- Whether a word waits in a queue or on a lock. -/
def State.withdrawable (s : State) (id op j : Nat) : Bool :=
  (s.queueWaits.any fun q => q.task == id && q.op == op && q.j == j) ||
    s.locks.any fun l => l.waiters.any fun w => w.task == id && w.op == op && w.j == j

/-- A flushed block that waits for leave loses its dead words, and waits no longer when none is left (R162, R179). -/
def OpWord.trimBlock (w : OpWord) (dead : Nat → Bool) : OpWord :=
  let outs := w.outs.mapIdx fun k o => if dead k then .none else o
  if w.stage = .done then w
  else if outs.all fun o => o == .none then { w with stage := .done, dropped := true, outs := [] }
  else { w with outs := outs }

/-- Drop the dead words of an operation. An entry that QPUT puts belongs to every instance of its window
(R279); what waits for an injection, for leave, for streams or for a circuit waits no longer (R245, R247, R330, R373,
R392). -/
def State.dropWords (s : State) (id : Nat) (dead : InstKey → Bool) (o : OpRec) : OpRec :=
  let g := o.firing
  { o with words := o.words.mapIdx fun j w =>
    match o.instr with
    | .qput _ =>
      if (List.range g.n).any fun k => dead (g.instAt k) then w.drop (s.withdrawable id o.id j) else w
    | .qsend _ =>
      if g.win.isEmpty then w.trimBlock fun k => dead ⟨g.tag.blk, g.tag.ctx, BitVec.ofNat 12 (w.pa + k)⟩
      else if (List.range g.n).any fun k => dead (g.instAt k) then w.drop true
      else w
    | .nextw _ | .mma _ | .leave _ | .sbar _ | .sopenRead _ _ | .sopenWrite _ _ | .sindRead _ _ | .sindWrite _ _ =>
      if dead (g.instAt j) then w.drop true else w
    | _ => if dead (g.instAt j) then w.drop (s.withdrawable id o.id j) else w }

/-- A set of readers to cancel (R266): the operations that have a dropped word on a reader list. -/
def OpRec.cancels (o : OpRec) : Bool := o.words.any fun w => w.dropped && w.stage == .reading

/-- The words that a task's IWRITEs have marked provisional and not yet staged (R261), whose reply is on its way, of the
words of operations that `mine` names. -/
def State.marksOf (s : State) (t : Task) (mine : OpRec → Nat → Bool) : List Nat :=
  s.agenda.filterMap fun x => match x with
    | .event (.bankReply id op j r) =>
      if id = t.id ∧ r.status = 0 then
        match t.op? op with
        | some o => match o.instr with
          | .iwrite _ => if mine o j then some (wordOf (o.at j).pa) else none
          | _ => none
        | none => none
      else none
    | _ => none

/-- A task has staged a write of a structure word. -/
def Task.stagedWrite (t : Task) (a : Nat) : Bool :=
  t.stagedOps.any fun o => o.pa == a && (match o.what with
    | .write _ _ => true
    | _ => false)

/-- The marks of IWRITE words that are dropped before they stage are withdrawn (R263), but for words that another write of
the task has marked. -/
def State.dropMarks (s : State) (t : Task) (dead : InstKey → Bool) : State :=
  let fresh := fun (o : OpRec) (j : Nat) => !(o.at j).dropped
  let gone := s.marksOf t fun o j => fresh o j && dead (o.firing.instAt j)
  let left := s.marksOf t fun o j => fresh o j && !dead (o.firing.instAt j)
  (gone.filter fun a => !left.contains a && !t.stagedWrite a).foldl (fun s a => s.unmarkOwn t.id a) s

/-- The operations of a task lose their dead words; requests that wait are withdrawn, reader entries are
cancelled, and operations with nothing left end. -/
def State.dropOps (s : State) (id : Nat) (dead : InstKey → Bool) : State :=
  match s.task? id with
  | none => s
  | some t =>
    let s := s.dropMarks t dead
    let ops := t.ops.map (s.dropWords id dead)
    let gone := fun (op j : Nat) => match ops.find? fun o => o.id == op with
      | some o => (o.at j).dropped
      | none => false
    let s1 := { s.withTask id fun t => { t with ops := ops } with
      queueWaits := s.queueWaits.filter fun q => !(q.task == id && gone q.op q.j)
      locks := s.locks.map fun l => { l with waiters := l.waiters.filter fun w => !(w.task == id && gone w.op w.j) } }
    let s2 := (ops.filter OpRec.cancels).foldl (fun s o => s.push (.readerCancel id o.id)) s1
    (ops.filter fun o => o.words.any (·.dropped)).foldl (fun s o => s.finishOp id o.id) s2

/-- Staged writes of dead instances are freed, and the words they marked provisional are unmarked (R234,
R263). -/
def State.dropStaged (s : State) (id : Nat) (dead : InstKey → Bool) : State :=
  match s.task? id with
  | none => s
  | some t =>
    let isDead := fun (o : StagedOp) => o.order.isNone && dead o.inst
    let marks := t.stagedOps.filterMap fun o => match o.what with
      | .write _ _ => if isDead o then some o.pa else none
      | _ => none
    let s1 := s.withTask id fun t => { t with
      staged := t.staged.filter fun w => match w.owner with
        | .inst k => !dead k
        | _ => true
      stagedOps := t.stagedOps.filter fun o => !isDead o }
    let left := fun (a : Nat) => t.stagedOps.any fun o => o.pa == a && !isDead o && (match o.what with
      | .write _ _ => true
      | _ => false)
    (marks.filter fun a => !left a).foldl (fun s a => s.unmarkOwn id a) s1

/-- Free the locks that dead instances hold (R275). -/
def State.dropLocks (s : State) (id : Nat) (dead : InstKey → Bool) : State :=
  (s.locks.filter fun l => l.task == id && dead l.inst).foldl (fun s l => s.freeLock l) s

/-- The SBARs of a task whose wait-mask streams have performed what they had begun are released (R247). The
data of an SBAR's word are the streams it waits for. -/
def State.settleSbars (s : State) (id : Nat) : State :=
  match s.task? id with
  | none => s
  | some t =>
    let pending := t.staged.filterMap fun w => match w.owner with
      | .stream k => some k
      | _ => none
    t.ops.foldl (fun s o =>
      match o.instr with
      | .sbar _ => (List.range o.words.length).foldl (fun s j =>
          if (o.at j).stage == .queued && !((o.at j).pending == 0) then
            (if (o.at j).data.any fun u => pending.contains u.toNat then s
             else s.finishWord id o.id j [operand o.instr o.firing 0 j])
          else s) s
      | _ => s) s

/-- Streams of dead instances close, and leave their staging as it stands (R248, R343). -/
def State.closeStreams (s : State) (id : Nat) (dead : InstKey → Bool) : State :=
  match s.task? id with
  | none => s
  | some t =>
    let gone := t.streams.filter fun x => dead (x.firing.instAt 0)
    let uids := gone.map (·.uid)
    let s1 := gone.foldl (fun s x => if x.leave = 0 then s else s.withDomain t.hoop (tileQuad x.tile) fun d =>
      { d with committed := d.committed - x.leave }) s
    { s1.withTask id fun t => { t with streams := t.streams.filter fun x => !uids.contains x.uid } with
      circuits := s1.circuits.filter fun c => !(c.task == id && uids.contains c.uid) }

/-- Close the streams of dead instances as a squash does, with the lines that they have staged (R248). -/
def State.dropStreams (s : State) (id : Nat) (dead : InstKey → Bool) : State :=
  let s1 := s.closeStreams id dead
  let open' := ((s1.task? id).map fun t => t.streams.map (·.uid)).getD []
  (s1.withTask id fun t => { t with staged := t.staged.filter fun w => match w.owner with
    | .stream k => open'.contains k
    | _ => true }).settleSbars id

/-- A complete block of QSEND that waits for leave and loses a word is complete no longer: the words it keeps are held
again (R162, R179). -/
def Task.brokenBlocks (t : Task) (dead : InstKey → Bool) : List Wait :=
  t.ops.flatMap fun o => match o.instr with
    | .qsend _ =>
      if !(o.firing.win.isEmpty) && (o.words.any fun w => w.stage != .done && !w.dropped) &&
          (List.range o.firing.n).any (fun k => dead (o.firing.instAt k)) then liveWaits dead (windowWaits o.firing)
      else []
    | _ => []

/-- The windows of QPUT that lose an iteration, held, complete, or on their way to the bank: their site, the tag of their
base, their size, and the source of one of their words. -/
def State.brokenPuts (s : State) (t : Task) (dead : InstKey → Bool) : List (Site × Tag × Nat) :=
  let one := fun (site : Site) (tag : Tag) => match t.instr? tag.blk tag.inst with
    | some (.qput f) =>
      let e := 2 ^ queueLe f.lit
      let base := tag.iter - BitVec.ofNat 12 (tag.iter.toNat % e)
      if (List.range e).any fun k => dead ⟨tag.blk, tag.ctx, base + BitVec.ofNat 12 k⟩ then
        some (site, { tag with iter := base, port := 0, fmt := 0, rdir := none }, e)
      else none
    | _ => none
  let held := (t.waiting.filter fun w => w.held).filterMap fun w => one w.site w.tok.tag
  let sets := s.agenda.filterMap fun x => match x with
    | .firing g => if g.task = t.id then one g.site g.tag else none
    | .event _ => none
  let asked := t.ops.filterMap fun o => if o.words.any fun w => !w.dropped then one o.firing.site o.firing.tag else none
  (held ++ sets ++ asked).eraseDups

/-- The word of the open sparse load's opener (R397). -/
def Task.openSparse (t : Task) : Option (OpRec × Nat) :=
  match t.sparse.bind t.op? with
  | some o => ((List.range o.words.length).find? fun j => (o.at j).stage == .sent).map fun j => (o, j)
  | none => none

/-- A word that waits for a sparse load of an instruction and context. -/
def Wait.coordinateFor (w : Wait) (g : Firing) : Bool :=
  w.held && w.site == g.site && w.tok.tag.port == 2 && w.tok.tag.blk == g.tag.blk && w.tok.tag.inst == g.tag.inst && w.tok.tag.ctx == g.tag.ctx

/-- The open load of a dead instance closes: its waiting words are discarded, and its slot returns to HELD (R397). -/
def State.closeSparse (s : State) (id : Nat) (dead : InstKey → Bool) : State :=
  match s.task? id with
  | none => s
  | some t =>
    match t.openSparse with
    | none => s
    | some (o, j) =>
      if !dead (o.firing.instAt j) then s
      else
        let slot := (operand o.instr o.firing 1 j).word.toNat
        let waits := t.waiting.filter fun w => w.coordinateFor o.firing
        let s1 := s.withTask id fun t => t.settleSpill { t with
          sparse := none
          waiting := t.waiting.filter fun w => !w.coordinateFor o.firing }
        let held := fun (x : Slot) => { x with st := SlotState.held }
        (s1.withHoop t.hoop fun h => { h with
          slots := h.slots.modify slot held, stray := h.stray + BitVec.ofNat 64 waits.length }).finishWord id o.id j []

/-- A squash that takes part of a window of QPUT takes the rest, and the surviving instances of the window
count their LSID as a null (R279). -/
def State.settlePuts (s : State) (id : Nat) (broken : List (Site × Tag × Nat)) : State :=
  match s.task? id with
  | none => s
  | some t => broken.foldl (fun s w =>
      match w with
      | (site, tag, e) =>
        let inside := fun (x : BitVec 12) => decide ((x - tag.iter).toNat < e)
        let s1 := s.withTask id fun t => t.settleSpill { t with waiting := t.waiting.filter fun v =>
          !(v.held && v.site == site && v.tok.tag.blk == tag.blk && v.tok.tag.inst == tag.inst &&
            v.tok.tag.ctx == tag.ctx && v.tok.tag.path == tag.path && v.tok.tag.pdep == tag.pdep && inside v.tok.tag.iter) }
        let lsid := ((t.instr? tag.blk tag.inst).map fun i => i.fields.lsid).getD 0
        (List.range e).foldl (fun s k => s.count id .unit tag ⟨tag.blk, tag.ctx, tag.iter + BitVec.ofNat 12 k⟩ (.lsid lsid)) s1) s

/-- Everything of a task's dead instances goes away: matched sets, waiting tokens with their entries and
spill slots, output-queue entries, staged writes, flags and frame-word writes, operations, locks and streams (R192). -/
def State.dropInstances (s : State) (id : Nat) (dead : InstKey → Bool) : State :=
  match s.task? id with
  | none => s
  | some t =>
    match liveAgenda id dead (fun k => dead k && (t.inst? k).isSome) s.agenda with
    | (items, back, n) =>
      let strays := n + (t.waiting.filter fun w => anyDead dead w.tok).length
      let s1 := ({ s with agenda := items }).withTask id fun t => t.settleSpill { t with
        waiting := liveWaits dead t.waiting ++ back ++ t.brokenBlocks dead
        loops := t.loops.filter fun l => !dead (l.firing.instAt 0)
        insts := t.insts.filter fun i => !dead i.key }
      let s2 := (s1.withTask id fun t => t.keepAccums fun a => !dead ⟨a.tag.blk, a.tag.ctx, a.iter⟩).withHoop t.hoop fun h =>
        { h with stray := h.stray + BitVec.ofNat 64 strays }
      (((((s2.closeSparse id dead).dropStaged id dead).dropStreams id dead).dropOps id dead).dropLocks id dead).settlePuts id
        (s.brokenPuts t dead)

/-! ### Contexts that retire (R52) -/

/-- The contexts of a list and every context descended from them. -/
def Task.withDescendants (t : Task) (cs : List (BitVec 12)) : Nat → List (BitVec 12)
  | 0 => cs
  | n + 1 =>
    let more := (t.contexts.filter fun c => match c.parent with
      | some p => cs.contains p.ctx && !cs.contains c.ctx
      | none => false).map (·.ctx)
    if more.isEmpty then cs else t.withDescendants (cs ++ more) n

/-- Tokens of contexts in output queues, which their retirement discards (R52): the agenda without them, and their
number. -/
def dropRoutes (id : Nat) (cs : List (BitVec 12)) (items : List Item) : List Item × Nat :=
  let gone := fun (x : Item) => match x with
    | .event (.tokenRoute f) => f.task == id && cs.contains f.tok.tag.ctx
    | _ => false
  (items.filter fun x => !gone x, (items.filter gone).length)

/-- The contexts leave service with all they hold; their numbers wait for a sweep (R52, R53), and an open
episode of theirs is bound no longer (R441). -/
def State.retire (s : State) (id : Nat) (cs : List (BitVec 12)) : State :=
  match s.task? id with
  | none => s
  | some t =>
    let s1 := s.dropInstances id fun k => cs.contains k.ctx
    match dropRoutes id cs s1.agenda with
    | (items, n) =>
      let s2 := (({ s1 with agenda := items }).withTask id fun t => { t with
        contexts := t.contexts.filter fun c => !cs.contains c.ctx
        windows := t.windows.filter fun w => !cs.contains w.ctx
        squashes := t.squashes.filter fun r => !cs.contains r.ctx
        latches := t.latches.filter fun l => !cs.contains l.ctx }).withHoop t.hoop fun h =>
          { h with retired := h.retired ++ cs.map fun c => (c, id), stray := h.stray + BitVec.ofNat 64 n }
      let s3 := s2.unbindEpisodes t.tower fun b => b.1 == id && cs.contains b.2
      if (s3.hoop t.hoop).sweep.isNone then s3.push (.sweepStart t.hoop) else s3

/-- The iteration that a LOOPI issue issues last. -/
def LoopIssue.last (l : LoopIssue) : BitVec 12 := l.firing.tag.iter + BitVec.ofNat 12 (l.trip - 1)

/-- A squash of the instances of a window later than iteration `i` (R192, R193): the record, everything of
theirs, the LOOPI issues of the window, and the child contexts of the squashed iterations with all that descend
from them. An issue that has issued all its iterations, none of them squashed, has nothing left to end. -/
def State.squashLater (s : State) (id : Nat) (blk : BitVec 7) (ctx i : BitVec 12) : State :=
  -- The offset of `i` in its window; `later` holds at the greater offsets up to 2,047.
  let d := (((s.task? id).bind fun t => t.window? blk ctx).map fun w => w.offset i).getD 0
  let later := fun (x : BitVec 12) => decide (0 < (x - i).toNat ∧ d + (x - i).toNat < 2048)
  let dead := fun (k : InstKey) => k.blk == blk && k.ctx == ctx && later k.iter
  let s1 := (s.dropInstances id dead).withTask id fun t => { t with
    squashes := t.squashes ++ [⟨blk, ctx, i, false⟩]
    loops := t.loops.filter fun l => !(l.firing.tag.blk == blk && l.firing.tag.ctx == ctx && (!l.ended || later l.last)) }
  match s1.task? id with
  | none => s1
  | some t =>
    let kids := (t.contexts.filter fun c => match c.parent with
      | some p => p.ctx == ctx && later p.iter
      | none => false).map (·.ctx)
    let s2 := if kids.isEmpty then s1 else s1.retire id (t.withDescendants kids t.contexts.length)
    if (s2.hoop t.hoop).sweep.isNone then s2.push (.sweepStart t.hoop) else s2

end Sys2Proof.Machine
end

