-- ==== Sys2Proof/Machine/Access.lean ====
section
/-!
DEFINITION. The way of an S-form access (R220 to R238): segments and their checks, translation caches,
order within a task, held faults, the staging buffer, and the words of an operation issued one after another.
-/

namespace Sys2Proof.Machine

/-! ### Segments (R220 to R223, R252) -/

/-- One access of an S-form instruction. `ident` is its LSID, or its SID for a stream's own access. -/
structure Access where
  seg : BitVec 4
  off : Word
  size : Nat
  write : Bool
  str : Bool
  ident : BitVec 5
  deriving DecidableEq, Repr

/-- Segment types (R220). -/
def typDram : Nat := 1
def typShm : Nat := 2
def typScr : Nat := 3
def typStruct : Nat := 4
def typHost : Nat := 5
def typLand : Nat := 6

def Task.segment (t : Task) (seg : BitVec 4) : Segment := t.tcb.segs.getD seg.toNat ⟨0, 0, 0, false, false, 0⟩

/-- The segment types an instruction accepts (R222, R255). -/
def segTypes : Instr → List Nat
  | .iread _ | .iwrite _ | .iclear _ => [typStruct]
  | .aadd _ | .afadd _ | .amin _ | .amax _ | .aminu _ | .amaxu _ | .aand _ | .aor _ | .axor _ | .aswap _ | .acas _
  | .afmin _ | .afmax _ | .atomsc _ _ | .lock _ | .qput _ | .qget _ | .launch _ => [typShm]
  | _ => [typDram, typShm, typScr, typHost]

/-- The virtual address of an access (R226). -/
def Segment.va (g : Segment) (off : Word) : Nat := (g.base + off.toNat) % 2 ^ 57

/-- The virtual address that a fault record shows: zero for a scratchpad segment (R252). -/
def Task.shownVa (t : Task) (a : Access) : Nat :=
  let g := t.segment a.seg
  if g.typ = typScr then 0 else g.va a.off

/-- The line class of an access (R222, R225, R382). -/
def Task.lineClass (t : Task) (seg : BitVec 4) (pa : Nat) : LineClass :=
  let typ := (t.segment seg).typ
  if typ = typScr then .scratch else if typ = typShm then .shared else if typ = typStruct then lineClassOf pa else .dram

/-- What the checks of R223 answer. -/
inductive Checked where
  | ok (pa : Nat) (key : BitVec 12)
  | walk (va : Nat)
  | fault (code : BitVec 8) (va : Nat)
  deriving DecidableEq, Repr

/-- Whether a cached page covers an address. -/
def Translation.covers (x : Translation) (asid : BitVec 16) (va : Nat) : Bool :=
  x.asid == asid && x.page == (if x.large then va / 2 ^ 25 else va / 2 ^ 16)

/-- A page held by a tile's micro-TLB or by the hoop's translation cache (R227). -/
def Hoop.lookup (h : Hoop) (tile : Option Nat) (asid : BitVec 16) (va : Nat) : Option Translation :=
  match h.tlb.find? fun x => x.tile == tile && x.covers asid va with
  | some x => some x
  | none => h.tlb.find? fun x => x.tile == none && x.covers asid va

/-- The checks of R223 in order, with the translation that the caches hold. A structure page on a host fails
check 6 (R255). -/
def State.checkAccess (s : State) (t : Task) (tile : Option Nat) (types : List Nat) (a : Access) : Checked :=
  let g := t.segment a.seg
  if !types.contains g.typ || a.off.toNat % a.size != 0 || decide (g.limit < a.off.toNat + a.size - 1) then .fault F_SEG 0
  else if !(if a.write then g.w else g.rd) then .fault F_PROT 0
  else if g.typ = typScr then .ok (scratchBase t.hoop + g.base + a.off.toNat) 0
  else
    let va := g.va a.off
    match (s.hoop t.hoop).lookup tile t.tcb.asid va with
    | none => .walk va
    | some x =>
      if !leafPermits x.entry a.write g.key || (g.typ == typStruct && entryHost x.entry) then .fault F_PROT va
      else .ok (leafPa x.entry x.large va) g.key

/-- Evict one of `n` entries when a cache is full; which one is not stated. -/
def evict (mine : Translation → Bool) (cap : Nat) (s : State) (l : List Translation) : State × List Translation :=
  let n := (l.filter mine).length
  if n < cap then (s, l)
  else
    match s.pick n with
    | (k, s1) => (s1, match (l.filter mine)[k]? with
      | some x => l.erase x
      | none => l)

/-- A completed walk fills the hoop's cache and the requesting micro-TLB (R227). -/
def State.fillTlb (s : State) (h : Nat) (tile : Option Nat) (asid : BitVec 16) (va : Nat) (e : BitVec 64) (large : Bool) : State :=
  let page := if large then va / 2 ^ 25 else va / 2 ^ 16
  match evict (fun x => x.tile == none) 2048 s (s.hoop h).tlb with
  | (s1, l1) =>
    match tile with
    | none => s1.withHoop h fun x => { x with tlb := l1 ++ [⟨none, asid, page, e, large⟩] }
    | some n =>
      match evict (fun x => x.tile == some n) 32 s1 l1 with
      | (s2, l2) => s2.withHoop h fun x =>
        { x with tlb := l2 ++ [⟨none, asid, page, e, large⟩, ⟨some n, asid, page, e, large⟩] }

/-- Word 0 of the record of a fault on the memory path (R252). -/
def accessDetail (a : Access) (tag : Tag) : Word :=
  a.seg ++ BitVec.ofBool a.write ++ BitVec.ofBool a.str ++ a.ident ++ tag.blk ++ tag.inst ++ (0 : BitVec 7)

/-- A fault of an access, with the record of R252. -/
def State.raiseAccess (s : State) (id : Nat) (src : Site) (tag : Tag) (a : Access) (code : BitVec 8) (va : Nat) : State :=
  s.raise id (.at code src (accessDetail a tag) a.off (vaLo va) (vaHi va))

/-! ### Order within a task (R229, R230) -/

/-- Every LSID below `k` of the store mask is counted. -/
def lsidsBelow (mask counted : Word) (k : BitVec 5) : Bool := mask &&& (1#32 <<< k.toNat - 1) &&& ~~~counted == 0

/-- Whether a word of an access may be performed in its instance's order. -/
def State.orderReady (s : State) (t : Task) (k : InstKey) (lsid : BitVec 5) (loadLike : Bool) : Bool :=
  match t.block? k.blk with
  | none => true
  | some b =>
    (match t.inst? k with
     | some i => lsidsBelow b.storeMask i.lsids lsid
     | none => true) &&
    !(loadLike && b.storeMask != 0 && s.instanceStands t ⟨k.blk, k.ctx, k.iter - 1⟩)

/-- The load-like accesses (R230, R255). -/
def loadLike : Instr → Bool
  | .ld _ _ _ | .ldv _ _ | .iread _ | .sopenRead _ _ | .sopenWrite _ _ | .sindRead _ _ | .sindWrite _ _ => true
  | _ => false

/-! ### The staging buffer (R233 to R235, R268) -/

/-- The operation entries of a quadrant: for each instance and line, as many as its most staged word has. -/
def opEntries (ops : List StagedOp) : Nat :=
  let groups := (ops.map fun o => (o.inst, o.order, lineOf o.pa)).eraseDups
  (groups.map fun k =>
    let mine := ops.filter fun o => (o.inst, o.order, lineOf o.pa) == k
    (mine.map fun o => (mine.filter fun p => wordOf p.pa == wordOf o.pa).length).foldl Nat.max 0).sum

/-- The staging entries of a quadrant in use. -/
def Task.stagingUsed (t : Task) (quad : Nat) : Nat :=
  ((t.staged.filter fun w => w.quad == quad).map fun w => (w.owner, lineOf w.pa)).eraseDups.length +
    opEntries (t.stagedOps.filter fun o => o.quad == quad)

/-- What staging answers: done, no entry free, or a debit that stopped the task. -/
inductive StageResult where
  | done (s : State)
  | full
  | stopped (s : State)
  deriving DecidableEq, Repr

/-- A new entry of a quadrant's staging buffer: it must be free, and it debits one line (R234, R235). -/
def State.newEntry (s : State) (g : Firing) (quad dom : Nat) (cls : LineClass) : StageResult :=
  match s.task? g.task with
  | none => .done s
  | some t =>
    if 2048 ≤ t.stagingUsed quad then .full
    else match s.debitLines g dom cls 1 with
      | .ok s1 => .done s1
      | .error s1 => .stopped s1

/-- Stage a plain write of up to four bytes of one line (R234). -/
def State.stagePlain (s : State) (g : Firing) (w : Staged) (dom : Nat) (cls : LineClass) : StageResult :=
  let put := fun (s : State) => s.withTask g.task fun t => { t with staged := t.staged ++ [w] }
  match s.task? g.task with
  | none => .done s
  | some t =>
    if t.staged.any fun v => v.quad == w.quad && v.owner == w.owner && lineOf v.pa == lineOf w.pa then .done (put s)
    else match s.newEntry g w.quad dom cls with
      | .done s1 => .done (put s1)
      | r => r

/-- Stage a structure or bank operation (R268). -/
def State.stageOp (s : State) (g : Firing) (o : StagedOp) (dom : Nat) (cls : LineClass) : StageResult :=
  let put := fun (s : State) => s.withTask g.task fun t => { t with stagedOps := t.stagedOps ++ [o] }
  match s.task? g.task with
  | none => .done s
  | some t =>
    let mine := t.stagedOps.filter fun p => p.quad == o.quad
    if opEntries (mine ++ [o]) = opEntries mine then .done (put s)
    else match s.newEntry g o.quad dom cls with
      | .done s1 => .done (put s1)
      | r => r

/-! ### Reads (R231) -/

def Staged.holds (w : Staged) (a : Nat) : Bool := decide (w.pa ≤ a ∧ a < w.pa + w.bytes.length)
def Staged.byte (w : Staged) (a : Nat) : Byte := w.bytes.getD (a - w.pa) 0

/-- The staged write of the reader's own instance that it sees at an address: the newest LSID below its own. -/
def ownStaged (k : InstKey) (lsid : BitVec 5) (a : Nat) (ws : List Staged) : Option Staged :=
  ws.foldl (fun best w =>
    if w.owner == .inst k && decide (w.lsid.toNat < lsid.toNat) && w.holds a then
      match best with
      | some b => if b.lsid.toNat ≤ w.lsid.toNat then some w else best
      | none => some w
    else best) none

/-- The committed staged write that holds an address. -/
def committedStaged (a : Nat) (ws : List Staged) : Option Staged :=
  (ws.filter fun w => w.owner == .committed && w.holds a).getLast?

/-- A byte as staging gives it to a reader, if staging holds it. `own` is the reader's instance and LSID. -/
def Task.stagedByte (t : Task) (own : Option (InstKey × BitVec 5)) (a : Nat) : Option Byte :=
  match own.bind fun k => ownStaged k.1 k.2 a t.staged with
  | some w => some (w.byte a)
  | none => (committedStaged a t.staged).map fun w => w.byte a

/-- The bytes a read sees (R231). -/
def State.readVisible (s : State) (t : Task) (own : Option (InstKey × BitVec 5)) (a n : Nat) : List Byte :=
  (List.range n).map fun k => (t.stagedByte own (a + k)).getD (s.mem.read (a + k))

/-- A read is served wholly from staging (R225). -/
def Task.servedByStaging (t : Task) (own : Option (InstKey × BitVec 5)) (a n : Nat) : Bool :=
  (List.range n).all fun k => (t.stagedByte own (a + k)).isSome

/-! ### The words of an operation -/

def tileOf : Site → Option Nat
  | .tile n => some n
  | _ => none

/-- The quadrant whose staging buffer takes a site's writes (R224). -/
def Task.stageQuad (t : Task) (site : Site) : Nat :=
  match site with
  | .tile n => tileQuad n
  | _ => t.lowQuad

/-- The address that word `j` of an operation of an S-form instruction checks (R223, R255). A bank
operation, a lock request and a queue request are checked as writes. -/
def accessOf (i : Instr) (g : Firing) (j : Nat) : Access :=
  let f := i.fields
  let off := (operand i g 0 j).word
  match i with
  | .ld _ w _ => ⟨f.seg, off, w.bytes, false, false, f.lsid⟩
  | .st _ w => ⟨f.seg, off, w.bytes, true, false, f.lsid⟩
  | .ldv _ _ | .iread _ => ⟨f.seg, off, 4, false, false, f.lsid⟩
  | .sopenRead _ _ | .sopenWrite _ _ | .sindRead _ _ | .sindWrite _ _ =>
    ⟨f.seg, (operand i g 1 j).word, 32, false, true, 0⟩
  | .launch f => ⟨f.lit.extractLsb' 0 4, (operand i g 1 j).word, 4, true, false, 0⟩
  | _ => ⟨f.seg, off, 4, true, false, f.lsid⟩

/-- A fault of word `j`: raised at once in the base instance, held in any other (R223, R232). -/
def State.faultWord (s : State) (id : Nat) (t : Task) (o : OpRec) (j : Nat) (a : Access) (code : BitVec 8) (va : Nat) : State :=
  if t.atBase (o.firing.instAt j) then s.raiseAccess id o.firing.src o.firing.tag a code va
  else (s.withOpWord id o.id j fun w => { w with stage := .held }).push (.heldFaultRecheck id o.id j)

/-- What staging does to word `j`: go on, take F_STAGE, or stop. -/
def State.afterStage (s : State) (id : Nat) (t : Task) (o : OpRec) (j : Nat) (a : Access) (r : StageResult) (k : State → State) : State :=
  match r with
  | .done s1 => k s1
  | .full => (s.endWord id o.id j).raiseAccess id o.firing.src o.firing.tag a F_STAGE (t.shownVa a)
  | .stopped s1 => s1.endWord id o.id j

/-- Count an LSID for an instance and finish the word with its results. -/
def State.countFinish (s : State) (id : Nat) (o : OpRec) (i : Instr) (j : Nat) (outs : List Out) : State :=
  match s.countOr id o.firing.src o.firing.tag (o.firing.instAt j) (.lsid i.fields.lsid) with
  | .error s1 => s1.endWord id o.id j
  | .ok s1 => s1.finishWord id o.id j outs

/-- A line request of word `j` of a set, which the set makes and debits once for each distinct line (R225). Requests that
staging serves (`kind` 2) are apart from those that go to memory (`kind` 1). -/
def State.askLine (s : State) (o : OpRec) (j pa kind dom : Nat) (cls : LineClass) : Except State State :=
  let g := o.firing
  let mark := fun (s : State) => s.withOpWord g.task o.id j fun w => { w with asked := kind, pa := pa }
  if (o.words.eraseIdx j).any fun w => w.asked == kind && lineOf w.pa == lineOf pa then .ok (mark s)
  else match s.debitLines g dom cls 1 with
    | .error s1 => .error s1
    | .ok s1 => .ok (mark s1)

/-- The line request of a read: a scratchpad line when staging serves the whole read (R225). -/
def State.debitRead (s : State) (t : Task) (o : OpRec) (i : Instr) (j pa size : Nat) : Except State State :=
  let whole := t.servedByStaging (some (o.firing.instAt j, i.fields.lsid)) pa size
  s.askLine o j pa (if whole then 2 else 1) (t.domainOf o.firing.site) (if whole then .scratch else t.lineClass i.fields.seg pa)

/-- A range scoreboard holds back an access of its hoop's scratchpad, by whatever address it is reached (R250, R469). -/
def State.rangeHolds (s : State) (pa size : Nat) : Bool :=
  s.hoops.any fun h => h.ranges.any fun r => decide (pa < r.hi ∧ r.lo < pa + size)

/-- Mark a word's request as sent and let its answer come. -/
def State.sendWord (s : State) (id op j pa : Nat) (e : Instr) : State :=
  (s.withOpWord id op j fun w => { w with stage := .sent, pa := pa }).push e

/-- Word `j` has passed its checks at physical address `pa`: a load or a structure request leaves the tile,
a store is staged, and an at-once operation waits for its window base (R237, R257, R261, R262, R267). -/
def State.performWord (s : State) (id : Nat) (t : Task) (o : OpRec) (i : Instr) (j pa : Nat) (key : BitVec 12) : State :=
  let g := o.firing
  let a := accessOf i g j
  let dom := t.domainOf g.site
  let quad := t.stageQuad g.site
  let cls := t.lineClass a.seg pa
  let k := g.instAt j
  let plain := fun (bytes : List Byte) (out : Out) =>
    s.afterStage id t o j a (s.stagePlain g ⟨quad, .inst k, a.ident, pa, bytes, key⟩ dom cls) fun s1 =>
      s1.countFinish id o i j [out]
  let staged := fun (what : StagedWhat) (outs : List Out) =>
    s.afterStage id t o j a (s.stageOp g ⟨quad, k, a.ident, wordOf pa, what, none⟩ dom cls) fun s1 =>
      s1.countFinish id o i j outs
  let b := operand i g 1 j
  let once := (s.withOpWord id o.id j fun w => { w with stage := .ready, pa := pa }).push (.atOnceRelease id o.id j)
  let atom := fun (f : SForm) (op : BankOp) =>
    if f.t0 = noTarget then staged (.atomic op b.word (operand i g 2 j).word) [] else once
  match i with
  | .ld _ _ _ | .ldv _ _ =>
    match s.debitRead t o i j pa a.size with
    | .error s1 => s1
    | .ok s1 => s1.sendWord id o.id j pa (.readComplete id o.id j)
  | .st _ w => plain (bytesOfNat b.word.toNat w.bytes) b
  | .stv _ _ => plain (bytesOfNat b.word.toNat 4) b
  | .iread _ | .iwrite _ =>
    match s.askLine o j pa 1 dom cls with
    | .error s1 => s1
    | .ok s1 => s1.sendWord id o.id j pa (.structRequest id o.id j)
  | .iclear _ => staged .clear [operand i g 0 j]
  | .aadd f => atom f .aadd
  | .afadd f => atom f .afadd
  | .amin f => atom f .amin
  | .amax f => atom f .amax
  | .aminu f => atom f .aminu
  | .amaxu f => atom f .amaxu
  | .aand f => atom f .aand
  | .aor f => atom f .aor
  | .axor f => atom f .axor
  | .aswap f => atom f .aswap
  | .acas f => atom f .acas
  | .afmin f => atom f .afmin
  | .afmax f => atom f .afmax
  | .sopenRead _ _ | .sopenWrite _ _ | .sindRead _ _ | .sindWrite _ _ =>
    match s.debitRead t o i j pa a.size with
    | .error s1 => s1
    | .ok s1 => (s1.withOpWord id o.id j fun w => { w with stage := .ready, pa := pa }).push (.streamEngineAcquire id o.id j)
  | .launch _ =>
    (s.withTask id fun t => t.withInst k fun x => { x with launches := x.launches ++ [pa] }).finishWord id o.id j [b]
  | _ => once

/-- Whether the range scoreboard orders an instruction's accesses (R250). -/
def scoreboarded : Instr → Bool
  | .ld _ _ _ | .st _ _ | .ldv _ _ | .stv _ _ => true
  | _ => false

/-- A checked word goes on, unless the range scoreboard holds it back. -/
def State.placeWordAt (s : State) (id : Nat) (t : Task) (o : OpRec) (i : Instr) (j pa : Nat) (key : BitVec 12) : State :=
  if scoreboarded i && s.rangeHolds pa (accessOf i o.firing j).size then
    (s.withOpWord id o.id j fun w => { w with stage := .ready, pa := pa }).push (.scoreboardWaitEnd id o.id j)
  else s.performWord id t o i j pa key

/-- Word `j` checks its address (R223) and goes on. UNLOCK has no address; a launch line is 64-byte aligned
(R329). -/
def State.accessWord (s : State) (id op j : Nat) : State :=
  match s.op? id op with
  | none => s
  | some (t, o) =>
    let i := o.instr
    let a := accessOf i o.firing j
    match i with
    | .unlock _ => (s.withOpWord id op j fun w => { w with stage := .ready }).push (.atOnceRelease id op j)
    | _ =>
      if (i matches .launch _) && a.off.toNat % 64 != 0 then s.faultWord id t o j a F_SEG 0
      else
        match s.checkAccess t (tileOf o.firing.site) (segTypes i) a with
        | .ok pa key => s.placeWordAt id t o i j pa key
        | .walk _ => (s.withOpWord id op j fun w => { w with stage := .walking }).push (.translationWalk id op j)
        | .fault code va => s.faultWord id t o j a code va

/-- What a word that performs nothing gives t0 (R32, R254, R280). -/
def nullOuts (i : Instr) : List Out :=
  match i with
  | .qget f => List.replicate (2 ^ queueLe f.lit) .null
  | _ => [.null]

/-- The task is still running. -/
def State.runs (s : State) (id : Nat) : Bool :=
  match s.task? id with
  | some t => t.phase == .running
  | none => false

/-- A write opener counts its LSID when it fires (R243). -/
def countsAtFiring : Instr → Bool
  | .sopenWrite _ _ | .sindWrite _ _ => true
  | _ => false

/-- The debit of a word that performs, and the count of a write opener. -/
def State.fireCounted (s : State) (g : Firing) (i : Instr) (j : Nat) : Except State State :=
  match s.fireWord g i.spec.cost 1 with
  | .error s1 => .error s1
  | .ok s1 => if countsAtFiring i then s1.countOr g.task g.src g.tag (g.instAt j) (.lsid i.fields.lsid) else .ok s1

/-- Issue the words of an operation from word `j` on, each after its own instance's order (R237). A word
that must wait is taken up again by LOAD_ORDER_RELEASE. -/
def State.issueFrom (s : State) (id op j : Nat) : Nat → State
  | 0 => s
  | n + 1 =>
    match s.op? id op with
    | none => s
    | some (t, o) =>
        let i := o.instr
        let g := o.firing
        let k := g.instAt j
        if !s.runs id || (o.at j).stage == .done then s.issueFrom id op (j + 1) n
        else if performs i g j then
          match s.fireCounted g i j with
          | .error s1 => s1
          | .ok s1 =>
            if s1.orderReady t k i.fields.lsid (loadLike i) then (s1.accessWord id op j).issueFrom id op (j + 1) n
            else s1.push (.loadOrderRelease id op j)
        else
          match nullStep g s with
          | .error s1 => s1
          | .ok (s1, _) =>
            if i.spec.counted then
              match s1.countOr id g.src g.tag k (.lsid i.fields.lsid) with
              | .error s2 => s2
              | .ok s2 => (s2.finishWord id op j (nullOuts i)).issueFrom id op (j + 1) n
            else (s1.finishWord id op j (nullOuts i)).issueFrom id op (j + 1) n

/-- An S-form set begins (R237, R254): one outstanding word for each word of the set. -/
def selvageFiring (i : Instr) (g : Firing) (s : State) : State :=
  match s.beginOp i g (List.replicate g.n ⟨.waiting, 0, [], [], 0, [], 0, false, 0⟩) with
  | (op, s1) => s1.issueFrom g.task op 0 g.n

/-! ### The events of an access -/

/-- What an event of an operation's word does while the word is at a stage; anything else is past. -/
def State.onWord (s : State) (id op j : Nat) (stage : OpStage) (k : Task → OpRec → State) : State :=
  match s.op? id op with
  | none => s
  | some (t, o) =>
    if (o.at j).stage = stage then k t o else s

/-- A task that is halted or frozen begins no new access (R335, R344). -/
def Task.halted (t : Task) : Bool := t.frozen != .none || t.phase == .halting

/-- LOAD_ORDER_RELEASE (R229, R230). -/
def execLoadOrderRelease (task op j : Nat) (s : State) : Result :=
  .next (s.onWord task op j .waiting fun t o =>
    let i := o.instr
    if t.halted || !s.orderReady t (o.firing.instAt j) i.fields.lsid (loadLike i) then s.block
    else (s.accessWord task op j).issueFrom task op (j + 1) (o.words.length - (j + 1)))

/-- HELD_FAULT_RECHECK (R232). -/
def execHeldFaultRecheck (task op j : Nat) (s : State) : Result :=
  .next (s.onWord task op j .held fun t o =>
    if t.halted || !t.atBase (o.firing.instAt j) then s.block else s.accessWord task op j)

/-- SCOREBOARD_WAIT_END (R250). -/
def execScoreboardWaitEnd (task op j : Nat) (s : State) : Result :=
  .next (s.onWord task op j .ready fun t o =>
    let i := o.instr
    let a := accessOf i o.firing j
    if t.halted || s.rangeHolds (o.at j).pa a.size then s.block
    else s.performWord task t o i j (o.at j).pa (if (t.segment a.seg).typ = typScr then 0 else (t.segment a.seg).key))

/-- All 64 walkers of a tower are busy with walks that were asked for earlier (R227). -/
def State.walkersBusy (s : State) (tower : Nat) : Bool :=
  let place := match s.cur with
    | some (_, k) => k
    | none => 0
  decide (64 ≤ ((s.agenda.take place).filter fun x => match x with
    | .event (.translationWalk id _ _) => ((s.task? id).map (·.tower)) == some tower
    | _ => false).length)

/-- TRANSLATION_WALK (R227, R228): the walk fills the caches, whatever has become of the word's instance, and the
checks go on; a walk that finds no page reports F_XLATE. -/
def execTranslationWalk (task op j : Nat) (s : State) : Result :=
  .next (s.onWord task op j .walking fun t o =>
    let i := o.instr
    let a := accessOf i o.firing j
    let va := (t.segment a.seg).va a.off
    let back := fun (s : State) => s.withOpWord task op j fun w => { w with stage := .waiting }
    if s.walkersBusy t.tower then s.block
    else match s.walk t.tcb.asid va with
      | some (e, level) =>
        let s1 := s.fillTlb t.hoop (tileOf o.firing.site) t.tcb.asid va e (level == 2)
        if (o.at j).dropped then s1.finishWord task op j [] else (back s1).accessWord task op j
      | none => if (o.at j).dropped then s.finishWord task op j [] else (back s).faultWord task t o j a F_XLATE va)

/-- Extend a loaded value (R96, R237). -/
def extendLoad (w : Width) (sx : Bool) (v : Nat) : Word :=
  match w, sx with
  | .byte, true => (BitVec.ofNat 8 v).signExtend 32
  | .half, true => (BitVec.ofNat 16 v).signExtend 32
  | _, _ => BitVec.ofNat 32 v

/-- What a load makes of the bytes it read. -/
def loadOut (i : Instr) (bs : List Byte) : Out :=
  match i with
  | .ld _ w sx => .data 0 (extendLoad w sx (natOfBytes bs))
  | .ldv _ fmt => .data fmt (BitVec.ofNat 32 (natOfBytes bs))
  | _ => .none

/-- READ_COMPLETE (R231): the read performs, and its word finishes. A line whose code does not match faults
the task (R251, R431). -/
def execReadComplete (task op j : Nat) (s : State) : Result :=
  .next (s.onWord task op j .sent fun t o =>
    let i := o.instr
    let a := accessOf i o.firing j
    let pa := (o.at j).pa
    let own := some (o.firing.instAt j, i.fields.lsid)
    let key := if (t.segment a.seg).typ = typScr then 0 else (t.segment a.seg).key
    if !t.servedByStaging own pa a.size && !s.lineGood pa key && !(o.at j).dropped then
      (s.endWord task op j).raiseAccess task o.firing.src o.firing.tag a F_CHECK (t.shownVa a)
    else (s.active task).finishWord task op j [loadOut i (s.readVisible t own pa a.size)])

end Sys2Proof.Machine
end

