-- ==== Sys2Proof/Machine/Flags.lean ====
section
/-!
DEFINITION. The five sticky flags (R69, R71) and the flags that one rounding raises.
-/

namespace Sys2Proof.Machine

def flagNV : BitVec 5 := 0b10000
def flagDZ : BitVec 5 := 0b01000
def flagOF : BitVec 5 := 0b00100
def flagUF : BitVec 5 := 0b00010
def flagNX : BitVec 5 := 0b00001

/-- NV when the condition holds (R69). -/
def nvIf (b : Bool) : BitVec 5 := if b then flagNV else 0

/-- NX when the condition holds (R69). -/
def nxIf (b : Bool) : BitVec 5 := if b then flagNX else 0

/-- The flags of a rounding that did not overflow: UF and NX when the delivered result is inexact and the
result, rounded as if the exponent range were unbounded, is below the smallest normal; NX alone when it
is only inexact (R69). -/
def roundFlags (inexact tiny : Bool) : BitVec 5 :=
  if inexact then (if tiny then flagUF ||| flagNX else flagNX) else 0

/-- The task flag word and the JSTAT flag word as a 32-bit word (R71). -/
def flagWord (f : BitVec 5) : Word := f.zeroExtend 32

end Sys2Proof.Machine
end

