-- ==== Sys2Proof/Machine/Float.lean ====
section
/-!
DEFINITION. Floating point (R57 to R69, R152 to R158). Operands become exact values, results are computed
exactly, or to far more digits than the destination keeps where they are irrational, and rounded once.
-/

namespace Sys2Proof.Machine

/-- A binary floating-point format (R59): the bits of its exponent and fraction. -/
structure FloatFmt where
  ebits : Nat
  fbits : Nat
  deriving DecidableEq, Repr

def fmtF32 : FloatFmt := ⟨8, 23⟩
def fmtBF16 : FloatFmt := ⟨8, 7⟩
def fmtH16 : FloatFmt := ⟨5, 10⟩

def FloatFmt.bias (f : FloatFmt) : Nat := 2 ^ (f.ebits - 1) - 1
/-- The smallest normal exponent (R59). -/
def FloatFmt.emin (f : FloatFmt) : Int := 1 - (f.bias : Int)
def FloatFmt.expMask (f : FloatFmt) : Nat := 2 ^ f.ebits - 1
def FloatFmt.signBit (f : FloatFmt) (neg : Bool) : Nat := if neg then 2 ^ (f.ebits + f.fbits) else 0
def FloatFmt.inf (f : FloatFmt) (neg : Bool) : Nat := f.signBit neg + f.expMask * 2 ^ f.fbits
def FloatFmt.maxFinite (f : FloatFmt) (neg : Bool) : Nat := f.inf neg - 1
/-- The canonical NaN (R60, R61). -/
def FloatFmt.nan (f : FloatFmt) : Nat := f.expMask * 2 ^ f.fbits + 2 ^ (f.fbits - 1)

/-- A floating-point value: a NaN, an infinity, or `m * 2^e` with a sign. -/
inductive FVal where
  | nan (signalling : Bool)
  | inf (neg : Bool)
  | fin (neg : Bool) (m : Nat) (e : Int)
  deriving DecidableEq, Repr

/-- The value an encoding stands for (R59, R60). -/
def FloatFmt.decode (f : FloatFmt) (w : Nat) : FVal :=
  let neg := w / 2 ^ (f.ebits + f.fbits) % 2 == 1
  let ex := w / 2 ^ f.fbits % 2 ^ f.ebits
  let fr := w % 2 ^ f.fbits
  if ex = f.expMask then (if fr = 0 then .inf neg else .nan (fr < 2 ^ (f.fbits - 1)))
  else if ex = 0 then .fin neg fr (f.emin - f.fbits)
  else .fin neg (fr + 2 ^ f.fbits) ((ex : Int) - f.bias - f.fbits)

def FVal.isNaN : FVal → Bool
  | .nan _ => true
  | _ => false
def FVal.isSignalling : FVal → Bool
  | .nan s => s
  | _ => false
def FVal.isZero : FVal → Bool
  | .fin _ m _ => m == 0
  | _ => false
def FVal.negative : FVal → Bool
  | .nan _ => false
  | .inf s => s
  | .fin s _ _ => s
def FVal.negate : FVal → FVal
  | .nan s => .nan s
  | .inf s => .inf !s
  | .fin s m e => .fin (!s) m e

/-- The rounding modes (R67). -/
inductive Mode where
  | rne | rz | rd | ru
  deriving DecidableEq, Repr

/-- Whether a magnitude is rounded away from zero: `odd` is the last kept bit, `rem` what is cut off, out of
`unit`. -/
def Mode.up (mode : Mode) (neg odd : Bool) (rem unit : Nat) : Bool :=
  match mode with
  | .rne => decide (unit < 2 * rem) || (unit == 2 * rem && odd)
  | .rz => false
  | .rd => neg && rem != 0
  | .ru => !neg && rem != 0

/-- `m * 2^e` as a multiple of `2^q`, and whether that is inexact. -/
def roundAt (mode : Mode) (neg : Bool) (m : Nat) (e q : Int) : Nat × Bool :=
  if q ≤ e then (m * 2 ^ (e - q).toNat, false)
  else
    let unit := 2 ^ (q - e).toNat
    let n := m / unit
    let rem := m % unit
    (if mode.up neg (n % 2 == 1) rem unit then n + 1 else n, rem != 0)

/-- The result of a rounding that overflows (R67). -/
def FloatFmt.overflow (f : FloatFmt) (mode : Mode) (sat neg : Bool) : Nat :=
  if sat then f.maxFinite neg
  else match mode with
    | .rne => f.inf neg
    | .rz => f.maxFinite neg
    | .rd => if neg then f.inf neg else f.maxFinite neg
    | .ru => if neg then f.maxFinite neg else f.inf neg

/-- Round the exact value `m * 2^e` once (R67 to R69). -/
def FloatFmt.round (f : FloatFmt) (mode : Mode) (sat neg : Bool) (m : Nat) (e : Int) : Nat × BitVec 5 :=
  if m = 0 then (f.signBit neg, 0)
  else
    let top := e + Nat.log2 m
    let qu := top - f.fbits
    let nu := (roundAt mode neg m e qu).1
    let emax : Int := f.bias
    if emax < qu + Nat.log2 nu then (f.overflow mode sat neg, flagOF ||| flagNX)
    else
      let q := if qu < f.emin - f.fbits then f.emin - f.fbits else qu
      let r := roundAt mode neg m e q
      let ex := (q + f.fbits + f.bias).toNat
      (f.signBit neg + (ex * 2 ^ f.fbits + r.1 - 2 ^ f.fbits), roundFlags r.2 (qu + Nat.log2 nu < f.emin))

/-- RoundNE(x) of R7 for a value given to more digits than the format keeps: `sticky` says that the exact
value lies strictly between `m * 2^e` and `(m + 1) * 2^e`. -/
def roundNE (f : FloatFmt) (neg : Bool) (m : Nat) (e : Int) (sticky : Bool) : Nat × BitVec 5 :=
  if sticky then f.round .rne false neg (2 * m + 1) (e - 1) else f.round .rne false neg m e

/-- A float result in 32 bits. -/
abbrev FRes := Word × BitVec 5

def nan32 : Word := 0x7FC00000#32
def f32 (w : Word) : FVal := fmtF32.decode w.toNat
def toWord (r : Nat × BitVec 5) : FRes := (BitVec.ofNat 32 r.1, r.2)

/-- Round an exact value to F32. -/
def FVal.toF32 (v : FVal) : FRes :=
  match v with
  | .nan s => (nan32, nvIf s)
  | .inf s => (BitVec.ofNat 32 (fmtF32.inf s), 0)
  | .fin s m e => toWord (fmtF32.round .rne false s m e)

/-- A signed multiple of a power of two. -/
def signedMag (neg : Bool) (m : Nat) : Int := if neg then -(m : Int) else m

/-- The exact sum of two finite values (R67 for the sign of an exact zero). -/
def exactAdd (s1 : Bool) (m1 : Nat) (e1 : Int) (s2 : Bool) (m2 : Nat) (e2 : Int) : FVal :=
  let e := if e1 ≤ e2 then e1 else e2
  let v := signedMag s1 (m1 * 2 ^ (e1 - e).toNat) + signedMag s2 (m2 * 2 ^ (e2 - e).toNat)
  if v = 0 then .fin (s1 && s2) 0 e
  else .fin (v < 0) v.natAbs e

/-- The exact sum of two values, with NV for ∞ − ∞ and for signalling NaNs (R69). -/
def FVal.add (a b : FVal) : FVal × BitVec 5 :=
  match a, b with
  | .nan s, y => (.nan false, nvIf (s || y.isSignalling))
  | x, .nan s => (.nan false, nvIf (s || x.isSignalling))
  | .inf s, .inf t => if s = t then (.inf s, 0) else (.nan false, flagNV)
  | .inf s, .fin _ _ _ => (.inf s, 0)
  | .fin _ _ _, .inf t => (.inf t, 0)
  | .fin s1 m1 e1, .fin s2 m2 e2 => (exactAdd s1 m1 e1 s2 m2 e2, 0)

/-- The exact product of two values, with NV for ∞ × 0 and for signalling NaNs (R69). -/
def FVal.mul (a b : FVal) : FVal × BitVec 5 :=
  match a, b with
  | .nan s, y => (.nan false, nvIf (s || y.isSignalling))
  | x, .nan s => (.nan false, nvIf (s || x.isSignalling))
  | .inf s, y => if y.isZero then (.nan false, flagNV) else (.inf (s != y.negative), 0)
  | x, .inf t => if x.isZero then (.nan false, flagNV) else (.inf (x.negative != t), 0)
  | .fin s1 m1 e1, .fin s2 m2 e2 => (.fin (s1 != s2) (m1 * m2) (e1 + e2), 0)

/-- Round a computed value to F32, keeping the flags found on the way. -/
def finish32 (r : FVal × BitVec 5) : FRes :=
  match r.1.toF32 with
  | (w, fl) => (w, r.2 ||| fl)

def fadd (a b : Word) : FRes := finish32 ((f32 a).add (f32 b))
def fsub (a b : Word) : FRes := finish32 ((f32 a).add (f32 b).negate)
def fmul (a b : Word) : FRes := finish32 ((f32 a).mul (f32 b))

/-- `a × b + c` with one rounding (R75, R152). -/
def FVal.fma (a b c : FVal) : FVal × BitVec 5 :=
  match a.mul b with
  | (p, fl) => match p.add c with
    | (r, fl') => (r, fl ||| fl')

def ffma (a b c : Word) : FRes := finish32 ((f32 a).fma (f32 b) (f32 c))
def ffms (a b c : Word) : FRes := finish32 ((f32 a).fma (f32 b) (f32 c).negate)

/-- The order of two values that are not NaN: `a < b`, with −0 and +0 equal. -/
def FVal.lt (a b : FVal) : Bool :=
  match a, b with
  | .nan _, _ => false
  | _, .nan _ => false
  | .inf s, .inf t => s && !t
  | .inf s, .fin _ _ _ => s
  | .fin _ _ _, .inf t => !t
  | .fin s1 m1 e1, .fin s2 m2 e2 =>
    let e := if e1 ≤ e2 then e1 else e2
    signedMag s1 (m1 * 2 ^ (e1 - e).toNat) < signedMag s2 (m2 * 2 ^ (e2 - e).toNat)

/-- FMIN and FMAX (R153): −0 counts as less than +0. -/
def fminmax (takeMax : Bool) (a b : Word) : FRes :=
  let x := f32 a
  let y := f32 b
  let fl := nvIf (x.isSignalling || y.isSignalling)
  match x.isNaN, y.isNaN with
  | true, true => (nan32, fl)
  | true, false => (b, fl)
  | false, true => (a, fl)
  | false, false =>
    let aLess := x.lt y || (x.isZero && y.isZero && x.negative && !y.negative)
    let bLess := y.lt x || (x.isZero && y.isZero && y.negative && !x.negative)
    ((if takeMax then (if aLess then b else a) else (if bLess then b else a)), fl)

def fmin (a b : Word) : FRes := fminmax false a b
def fmax (a b : Word) : FRes := fminmax true a b

def fabs (a : Word) : FRes := if (f32 a).isNaN then (nan32, 0) else (a &&& 0x7FFFFFFF#32, 0)
def fneg (a : Word) : FRes := if (f32 a).isNaN then (nan32, 0) else (a ^^^ 0x80000000#32, 0)

/-- FCLASS (R155). -/
def fclass (a : Word) : Word :=
  match f32 a with
  | .nan s => if s then 0x100#32 else 0x200#32
  | .inf s => if s then 0x001#32 else 0x080#32
  | .fin s m _ =>
    if m = 0 then (if s then 0x008#32 else 0x010#32)
    else if m < 2 ^ 23 then (if s then 0x004#32 else 0x020#32)
    else (if s then 0x002#32 else 0x040#32)

/-- FEQ, FLT, FLE, FUNO (R156). -/
def feq (a b : Word) : FRes :=
  let x := f32 a
  let y := f32 b
  (Word.ofBool (!x.isNaN && !y.isNaN && !x.lt y && !y.lt x), nvIf (x.isSignalling || y.isSignalling))
def flt (a b : Word) : FRes :=
  let x := f32 a
  let y := f32 b
  (Word.ofBool (x.lt y), nvIf (x.isNaN || y.isNaN))
def fle (a b : Word) : FRes :=
  let x := f32 a
  let y := f32 b
  (Word.ofBool (!x.isNaN && !y.isNaN && !y.lt x), nvIf (x.isNaN || y.isNaN))
def funo (a b : Word) : FRes :=
  let x := f32 a
  let y := f32 b
  (Word.ofBool (x.isNaN || y.isNaN), nvIf (x.isSignalling || y.isSignalling))

/-- The mode code of FRND and CVT (R92, R157). -/
def modeOf (n : Nat) : Mode :=
  match n % 4 with
  | 0 => .rne
  | 1 => .rz
  | 2 => .rd
  | _ => .ru

/-- FRND (R157). -/
def frnd (a b : Word) : FRes :=
  match f32 a with
  | .nan s => (nan32, nvIf s)
  | .inf _ => (a, 0)
  | .fin s m e =>
    match roundAt (modeOf b.toNat) s m e 0 with
    | (n, inexact) =>
      if inexact then (BitVec.ofNat 32 (fmtF32.round .rne false s n 0).1, flagNX) else (a, 0)

/-! ### Special functions (R158) -/

/-- FDIV: quotients to at least 64 bits beyond the divisor's length. -/
def fdiv (a b : Word) : FRes :=
  let x := f32 a
  let y := f32 b
  let s := x.negative != y.negative
  let inf : FRes := (BitVec.ofNat 32 (fmtF32.inf s), 0)
  let zero : FRes := (BitVec.ofNat 32 (fmtF32.signBit s), 0)
  match x, y with
  | .nan t, _ => (nan32, nvIf (t || y.isSignalling))
  | _, .nan t => (nan32, nvIf (t || x.isSignalling))
  | .inf _, .inf _ => (nan32, flagNV)
  | .inf _, .fin _ _ _ => inf
  | .fin _ _ _, .inf _ => zero
  | .fin _ m1 e1, .fin _ m2 e2 =>
    if m2 = 0 then (if m1 = 0 then (nan32, flagNV) else (inf.1, flagDZ))
    else if m1 = 0 then zero
    else
      let k := 64 + Nat.log2 m2
      toWord (roundNE fmtF32 s (m1 * 2 ^ k / m2) (e1 - e2 - k) (m1 * 2 ^ k % m2 != 0))

/-- The integer square root, bit by bit from bit `n - 1` down. -/
def isqrtFrom (v r : Nat) : Nat → Nat
  | 0 => r
  | n + 1 =>
    let c := r + 2 ^ n
    isqrtFrom v (if c * c ≤ v then c else r) n

def isqrt (v : Nat) : Nat := isqrtFrom v 0 (Nat.log2 v / 2 + 1)

/-- A positive finite value as `m * 2^(2h)`. -/
def evenExp (m : Nat) (e : Int) : Nat × Int := if e % 2 = 0 then (m, e / 2) else (2 * m, (e - 1) / 2)

/-- FSQRT. -/
def fsqrt (a : Word) : FRes :=
  match f32 a with
  | .nan s => (nan32, nvIf s)
  | .inf s => if s then (nan32, flagNV) else (a, 0)
  | .fin s m e =>
    if m = 0 then (a, 0)
    else if s then (nan32, flagNV)
    else
      match evenExp m e with
      | (m, h) =>
        let v := m * 2 ^ 64
        let r := isqrt v
        toWord (roundNE fmtF32 false r (h - 32) (r * r != v))

/-- FRCP. -/
def frcp (a : Word) : FRes :=
  match f32 a with
  | .nan s => (nan32, nvIf s)
  | .inf s => (BitVec.ofNat 32 (fmtF32.signBit s), 0)
  | .fin s m _ => if m = 0 then (BitVec.ofNat 32 (fmtF32.inf s), flagDZ) else fdiv 0x3F800000#32 a

/-- FRSQ. -/
def frsq (a : Word) : FRes :=
  match f32 a with
  | .nan s => (nan32, nvIf s)
  | .inf s => if s then (nan32, flagNV) else (0, 0)
  | .fin s m e =>
    if m = 0 then (BitVec.ofNat 32 (fmtF32.inf s), flagDZ)
    else if s then (nan32, flagNV)
    else
      match evenExp m e with
      | (m, h) =>
        let r := isqrt (2 ^ 128 / m)
        toWord (roundNE fmtF32 false r (-h - 64) (r * r * m != 2 ^ 128))

/-- The natural logarithm of two in units of 2^−256. -/
def ln2 : Nat := 80260960185991308862233904206310070533990667611589946606122867505419956976171

/-- The exponential series `1 + x + x²/2! + …` in units of 2^−256: `term` is the `k`-th term. -/
def expSeries (x term k acc : Nat) : Nat → Nat
  | 0 => acc
  | n + 1 =>
    let t := term * x / 2 ^ 256 / (k + 1)
    expSeries x t (k + 1) (acc + t) n

/-- `2^f` in units of 2^−256, for `f` in units of 2^−256 below one. -/
def exp2Frac (f : Nat) : Nat := expSeries (f * ln2 / 2 ^ 256) (2 ^ 256) 0 (2 ^ 256) 60

/-- FEXP2. -/
def fexp2 (a : Word) : FRes :=
  match f32 a with
  | .nan s => (nan32, nvIf s)
  | .inf s => if s then (0, 0) else (a, 0)
  | .fin s m e =>
    if m = 0 then (0x3F800000#32, 0)
    else if (Nat.log2 m : Int) + e < -26 then (0x3F800000#32, flagNX)
    else if 8 ≤ (Nat.log2 m : Int) + e then
      (if s then (0, flagUF ||| flagNX) else (0x7F800000#32, flagOF ||| flagNX))
    else
      let v : Int := signedMag s (if 0 ≤ e then m * 2 ^ e.toNat * 2 ^ 64 else m * 2 ^ 64 / 2 ^ (-e).toNat)
      let n := v / 2 ^ 64
      let f := (v % 2 ^ 64).toNat
      if f = 0 then toWord (roundNE fmtF32 false 1 n false)
      else toWord (roundNE fmtF32 false (exp2Frac (f * 2 ^ 192)) (n - 256) true)

/-- The series `z + z³/3 + z⁵/5 + …` in units of 2^−256. -/
def atanhSeries (z2 power k acc : Nat) : Nat → Nat
  | 0 => acc
  | n + 1 => atanhSeries z2 (power * z2 / 2 ^ 256) (k + 2) (acc + power / k) n

/-- `log2 x` in units of 2^−256, for `x = m / 2^23` between one and two. -/
def log2Frac (m : Nat) : Nat :=
  let z := (m - 2 ^ 23) * 2 ^ 256 / (m + 2 ^ 23)
  2 * atanhSeries (z * z / 2 ^ 256) z 1 0 90 * 2 ^ 256 / ln2

/-- FLOG2. -/
def flog2 (a : Word) : FRes :=
  match f32 a with
  | .nan s => (nan32, nvIf s)
  | .inf s => if s then (nan32, flagNV) else (a, 0)
  | .fin s m e =>
    if m = 0 then (0xFF800000#32, flagDZ)
    else if s then (nan32, flagNV)
    else
      let sh := 23 - Nat.log2 m
      let m' := m * 2 ^ sh
      let n : Int := e - sh + 23
      if m' = 2 ^ 23 then toWord (roundNE fmtF32 (n < 0) n.natAbs 0 false)
      else
        let v : Int := n * 2 ^ 256 + log2Frac m'
        toWord (roundNE fmtF32 (v < 0) v.natAbs (-256) true)

end Sys2Proof.Machine
end

