-- ==== Sys2Proof/Machine/Flow.lean ====
section
/-!
DEFINITION. The flow instructions (R180 to R216).
-/

namespace Sys2Proof.Machine

/-! ### Copies, nulls and merging (R182, R183, R186, R213, R286) -/

/-- Forward a control token other than NULL whole, by one firing (R182), with what the firing does besides. -/
def forwardControl (i : Instr) (t : Token) (also : State → State) (g : Firing) (s : State) : State :=
  if predicateFalse i g 0 || anyNull i g 0 then emitResult i g (wordLoop (fun _ s => nullStep g s) s 0 1)
  else match s.fireWord g i.spec.cost i.spec.passes with
    | .error s1 => s1
    | .ok s1 => (also s1).emitControl g i.fields.tact g.tag [i.fields.t0, i.fields.t1] 7 t.words

/-- Forward a port's token: a control token other than NULL whole (R182), anything else word by word. -/
def forwardFiring (i : Instr) (port : Nat) (tok : Option Token) (g : Firing) (s : State) : State :=
  match controlToken tok with
  | none => emitResult i g (wordLoop (forwardStep i g fun j => operand i g port j) s 0 g.n)
  | some t => forwardControl i t id g s

/-- MOV (R182). -/
def execMov (f : StdForm) (s : State) : Result := withFiring s fun g s => forwardFiring (.mov f) 0 g.a g s

/-- NULL (R183). -/
def execNullTok (f : StdForm) (s : State) : Result :=
  withFiring s fun g s => emitResult (.nullTok f) g (wordLoop (forwardStep (.nullTok f) g fun _ => .null) s 0 g.n)

/-- MERGE (R186, R286): the token of the port that has one; two control tokens leave as one. -/
def execMerge (f : StdForm) (s : State) : Result :=
  withFiring s fun g s =>
    if g.a.isSome then forwardFiring (.merge f) 0 g.a g s else forwardFiring (.merge f) 1 g.b g s

/-- Count a progress mark (R213). -/
def State.mark (s : State) (id : Nat) : State := s.withTask id fun t => { t with marks := t.marks + 1 }

/-- PMARK (R213). -/
def execPmark (f : StdForm) (s : State) : Result :=
  withFiring s fun g s =>
    match controlToken g.a with
    | some t => forwardControl (.pmark f) t (fun s => s.mark g.task) g s
    | none =>
      emitResult (.pmark f) g (wordLoop (fun j s =>
        match forwardStep (.pmark f) g (fun j => operand (.pmark f) g 0 j) j s with
        | .error s1 => .error s1
        | .ok (s1, o) => .ok (if performs (.pmark f) g j then s1.mark g.task else s1, o)) s 0 g.n)

/-! ### Steering (R184, R185, R286) -/

/-- Push one path bit. -/
def Tag.push (t : Tag) (b : Bool) : Tag :=
  if t.pdep.toNat < 4 then
    { t with path := t.path ||| (if b then 1#4 <<< t.pdep.toNat else 0), pdep := t.pdep + 1 }
  else t

/-- The tag that STEER's words carry to t0 or t1. -/
def steerTag (f : StdForm) (tag : Tag) (arm : Bool) : Tag := if f.lit.getLsbD 0 then Tag.push tag arm else tag

/-- Where a word of STEER goes: to t0, to t1, or as NULL to both. -/
inductive Arm where
  | t0 | t1 | both
  deriving DecidableEq, Repr

def steerArm (f : StdForm) (g : Firing) (j : Nat) : Arm :=
  if anyNull (.steer f) g j then .both
  else if (operand (.steer f) g 2 j).word = 0 then .t1 else .t0

/-- The words for one arm. -/
def steerOuts (f : StdForm) (g : Firing) (arm : Arm) : List Out :=
  (List.range g.n).map fun j =>
    match steerArm f g j with
    | .both => .null
    | a => if a = arm then operand (.steer f) g 0 j else .none

/-- The words of the two arms leave in one output-queue entry: all pieces for t0, and then those for t1 (R44, R185). -/
def State.emitArms (s : State) (f : StdForm) (g : Firing) (os0 os1 : List Out) : State :=
  let e := Tag.emitter g.tag
  (s.freshen.emitPieces e g s.fresh f.tact (steerTag f g.tag true) [f.t0] os0).emitPieces e g s.fresh f.tact (steerTag f g.tag false)
    [f.t1] os1

/-- A control token goes to the arms that `to0` and `to1` name, in one output-queue entry. -/
def State.steerControl (s : State) (f : StdForm) (g : Firing) (t : Token) (to0 to1 : Bool) : State :=
  let p : Piece := ⟨0, 7, t.words⟩
  let s1 := if to0 then s.freshen.emitPiece g s.fresh f.tact (steerTag f g.tag true) f.t0 p else s.freshen
  if to1 then s1.emitPiece g s.fresh f.tact (steerTag f g.tag false) f.t1 p else s1

/-- STEER (R185). A BARRIER or EOS forms a set alone and goes to both arms (R286). -/
def execSteer (f : StdForm) (s : State) : Result :=
  withFiring s fun g s =>
    match controlToken g.a with
    | some t =>
      match s.fireWord g .t 1 with
      | .error s1 => s1
      | .ok s1 =>
        if g.c.isNone then s1.steerControl f g t true true
        else match steerArm f g 0 with
          | .both => s1.emitArms f g [.null] [.null]
          | .t0 => s1.steerControl f g t true false
          | .t1 => s1.steerControl f g t false true
    | none =>
      match wordLoop (fun _ s => nullStep g s) s 0 g.n with
      | .error s1 => s1
      | .ok (s1, _) => s1.emitArms f g (steerOuts f g .t0) (steerOuts f g .t1)

/-! ### Exits (R189) -/

/-- Hold what an instance delivers when it commits. -/
def State.hold (s : State) (id : Nat) (k : InstKey) (h : HeldExit) : State :=
  s.withTask id fun t => t.withInst k fun i => { i with held := some h }

/-- The exit entry of a block (R84). -/
def Task.exit? (t : Task) (blk : BitVec 7) (e : BitVec 3) : Option ExitEntry := (t.block? blk).bind fun b => b.exits[e.toNat]?

/-- A continuing exit delivers its word to the next iteration of its own block now. -/
def State.continueExit (s : State) (g : Firing) (j : Nat) (o : Out) : State :=
  let tag : Tag := { g.tag with iter := g.tag.iter + BitVec.ofNat 12 j }
  s.freshen.emitTo g.task g.site s.fresh (some (Tag.emitter tag)) .inc tag g.tag.blk 0 0 o.fmt [o.word]

/-- The words of EXIT, one after another. A leaving exit squashes the later ones. -/
def exitWords (e : BitVec 3) (g : Firing) (s : State) (j : Nat) : Nat → State
  | 0 => s
  | n + 1 =>
    match s.fireWord g .t 1 with
    | .error s1 => s1
    | .ok s1 =>
      match tokenOut g.a j with
      | .data fmt w =>
        match s1.countOr g.task g.src g.tag (g.instAt j) .exit with
        | .error s2 => s2
        | .ok s2 =>
          match (s2.task? g.task).bind fun t => t.exit? g.tag.blk e with
          | some x =>
            if x.self && x.tact = .inc then exitWords e g (s2.continueExit g j (.data fmt w)) (j + 1) n
            else
              let tag : Tag := { g.tag with iter := g.tag.iter + BitVec.ofNat 12 j }
              (s2.hold g.task (g.instAt j) (.exit e (.data fmt w) tag)).squashLater g.task g.tag.blk g.tag.ctx tag.iter
          | none => exitWords e g s2 (j + 1) n
      | _ => exitWords e g s1 (j + 1) n

/-- EXIT (R189). -/
def execExit (exit : BitVec 3) (s : State) : Result := withFiring s fun g s => exitWords exit g s 0 g.n

/-! ### Frame words (R194 to R196) -/

/-- The committed content of a frame word. -/
def Context.frameWord (c : Context) (fw : BitVec 5) : Out :=
  match c.frame.find? fun x => x.fw == fw with
  | some x => .data x.fmt x.word
  | none => .data 0 0

/-- Put a frame word; zero I32 needs no entry. -/
def putFrame (x : FrameWord) (fr : List FrameWord) : List FrameWord :=
  let rest := fr.filter fun y => y.fw != x.fw
  if x.word = 0 ∧ x.fmt = 0 then rest else rest ++ [x]

/-- READ waits for the instance before its own (R196). -/
def State.readWaits (s : State) (t : Task) (fw : BitVec 5) (g : Firing) (j : Nat) : Bool :=
  match t.block? g.tag.blk with
  | some b => b.writeMask.getLsbD fw.toNat && !(tokenOut g.a j).isNull &&
      s.instanceStands t ⟨g.tag.blk, g.tag.ctx, g.tag.iter + BitVec.ofNat 12 j - 1⟩
  | none => false

/-- READ (R196). A step takes up only leading words that need not wait. -/
def execRead (f : RwForm) (s : State) : Result :=
  withFiring s fun g s =>
    match s.task? g.task with
    | none => s
    | some t =>
      if (List.range g.n).any fun j => s.readWaits t f.fw g j then s.block
      else
        let word := match t.context? g.tag.ctx with
          | some c => c.frameWord f.fw
          | none => .data 0 0
        emitResult (.read f) g (wordLoop (forwardStep (.read f) g fun _ => word) s 0 g.n)

/-- WRITE (R195). -/
def execWrite (f : RwForm) (s : State) : Result :=
  withFiring s fun g s =>
    emitResult (.write f) g (wordLoop (fun j s =>
      match s.fireWord g .t 1 with
      | .error s1 => .error s1
      | .ok s1 =>
        let k := g.instAt j
        match s1.countOr g.task g.src g.tag k (.fw f.fw) with
        | .error s2 => .error s2
        | .ok s2 =>
          match tokenOut g.a j with
          | .data fmt w => .ok (s2.withTask g.task fun t => t.withInst k fun i =>
              { i with writes := i.writes ++ [⟨f.fw, w, fmt⟩] }, .data fmt w)
          | o => .ok (s2, o)) s 0 g.n)

/-! ### Counted loops (R197 to R200) -/

/-- The live issue of a window that covers an iteration (R199). -/
def LoopIssue.covers (l : LoopIssue) (tag : Tag) (iter : BitVec 12) : Bool :=
  l.firing.tag.blk == tag.blk && l.firing.tag.ctx == tag.ctx && decide ((iter - l.firing.tag.iter).toNat < l.trip)

/-- The live issues of LOOPI in a window (R199). -/
def Task.liveIssues (t : Task) (tag : Tag) : List LoopIssue :=
  t.loops.filter fun l => l.firing.tag.blk == tag.blk && l.firing.tag.ctx == tag.ctx

/-- A set of LOOPI that a covered count word formed alone, without the other operands of its instruction (R199). -/
def continuation (f : StdForm) (g : Firing) : Bool := (!f.lb && g.b.isNone) || (f.pr && g.p.isNone)

/-- A word of LOOPI lies outside the live issue of its window, and waits for its end (R199). -/
def Task.loopiWaits (t : Task) (f : StdForm) (g : Firing) (j : Nat) : Bool :=
  let live := t.liveIssues g.tag
  !live.isEmpty && !continuation f g && !(live.any fun l => l.covers g.tag (g.tag.iter + BitVec.ofNat 12 j))

/-- Results for t0 and for t1 in one output-queue entry. -/
def State.emitPair (s : State) (g : Firing) (f : StdForm) (os0 os1 : List Out) : State :=
  let e := Tag.emitter g.tag
  (s.freshen.emitPieces e g s.fresh .keep g.tag [f.t0] os0).emitPieces e g s.fresh .keep g.tag [f.t1] os1

/-- The words of LOOPI, one after another: a continuation of a live issue debits T and is discarded, a word outside it
waits, and any other begins an issue or, with no trip, emits the two fixed words. -/
def loopiWords (f : StdForm) (g : Firing) (s : State) (j : Nat) : Nat → State
  | 0 => s
  | n + 1 =>
    match s.task? g.task with
    | none => s
    | some t =>
      let g1 := g.part j 1
      if t.loopiWaits f g j then
        -- The rest of the set waits in the matching store.
        let rest : Item := .firing (g.part j (n + 1))
        { s with cur := s.cur.map fun (c : Item × Nat) => (rest, c.2) }.block
      else
        match s.fireWord g1 .t 1 with
        | .error s1 => s1
        | .ok s1 =>
          let trip := (operand (.loopi f) g 0 j).word.toInt
          let s2 :=
            if !(t.liveIssues g.tag).isEmpty || continuation f g then s1
            else if anyNull (.loopi f) g j then s1.emitOuts g1 .keep g1.tag [f.t0, f.t1] [.null]
            else if trip ≤ 0 then s1.emitPair g1 f [.null] [.data 0 1]
            else
              let issue : LoopIssue := ⟨s1.fresh, g1, .loopi f, trip.toNat, (operand (.loopi f) g 1 j).word, 0, false⟩
              (s1.freshen.withTask g.task fun t => { t with loops := t.loops ++ [issue] }).push (.loopiIssue g.task s1.fresh)
          loopiWords f g s2 (j + 1) n

/-- LOOPI (R197, R199). -/
def execLoopi (f : StdForm) (s : State) : Result := withFiring s fun g s => loopiWords f g s 0 g.n

/-- The words of BREAK: those after a nonzero word belong to squashed instances. -/
def breakWords (f : StdForm) (g : Firing) (s : State) (j : Nat) : Nat → Except State (State × List Out)
  | 0 => .ok (s, [])
  | n + 1 =>
    match forwardStep (.brk f) g (fun j => operand (.brk f) g 0 j) j s with
    | .error s1 => .error s1
    | .ok (s1, o) =>
      if !o.isNull && o.word != 0 then
        .ok (s1.squashLater g.task g.tag.blk g.tag.ctx (g.tag.iter + BitVec.ofNat 12 j), [o])
      else match breakWords f g s1 (j + 1) n with
        | .error s2 => .error s2
        | .ok (s2, os) => .ok (s2, o :: os)

/-- BREAK (R200). -/
def execBrk (f : StdForm) (s : State) : Result :=
  withFiring s fun g s => emitResult (.brk f) g (breakWords f g s 0 g.n)

/-- One run of a LOOPI issue (R198): up to 32 consecutive admitted iterations, each debiting T. -/
def State.issueRun (s : State) (f : StdForm) (l : LoopIssue) (n : Nat) : State :=
  let g := { l.firing with tag := { l.firing.tag with iter := l.firing.tag.iter + BitVec.ofNat 12 l.issued } }
  match wordLoop (fun j s =>
      match s.debitAt g .t with
      | .error s1 => .error s1
      | .ok s1 => .ok (s1, .data 0 (l.start + BitVec.ofNat 32 (l.issued + j)))) s 0 n with
  | .error s1 => s1
  | .ok (s1, os) =>
    let ended := l.issued + n = l.trip
    let flags : List Out := (List.range n).map fun j => .data 0 (Word.ofBool (l.issued + j + 1 = l.trip))
    let mine := fun (x : LoopIssue) => x.id == l.id
    let s1a := s1.withTask g.task fun t =>
      { t with loops := modifyWhere mine (fun x => { x with issued := l.issued + n, ended := ended }) t.loops }
    let s2 := (s1a.active g.task).emitPair g f os flags
    if ended then s2 else s2.push (.loopiIssue g.task l.id)

/-- LOOPI_ISSUE (R198). -/
def execLoopiIssue (task id : Nat) (s : State) : Result :=
  .next <|
    match s.task? task with
    | none => s
    | some t =>
      match t.loops.find? fun l => l.id == id with
      | none => s
      | some l =>
        if t.phase != .running || t.frozen != .none then (if t.phase.leaving then s else s.block)
        else
          let g := { l.firing with tag := { l.firing.tag with iter := l.firing.tag.iter + BitVec.ofNat 12 l.issued } }
          let n := s.admittedPrefix t g 0 (Nat.min 32 (l.trip - l.issued))
          if n = 0 || decide (3 < s.outputQueue task g.site) then s.block
          else match l.instr with
            | .loopi f => s.issueRun f l n
            | _ => s

/-! ### Calls (R201 to R204) -/

/-- A word of CALL asks for the child context, whose grant records the return route and sends the word to
instruction 0, port A, of the callee (R202). -/
def State.callWord (s : State) (f : StdForm) (g : Firing) (j : Nat) (o : Out) : State :=
  match s.task? g.task with
  | none => s
  | some t =>
    let tag : Tag := { g.tag with iter := g.tag.iter + BitVec.ofNat 12 j, port := 0, fmt := 0, rdir := none }
    let callee := BitVec.ofNat 7 (((t.placed? g.tag.blk g.tag.inst).map (·.callee)).getD 0)
    let kid : Tag := { tag with iter := 0, path := 0, pdep := 0, blk := callee, inst := 0, fmt := o.fmt }
    let oq := s.fresh
    s.freshen.push (.contextGrant ⟨g.task, tag, callee, some ⟨tag, f.t0, f.t1⟩,
      [⟨g.task, g.site, t.siteOf callee 0 0, oq, ⟨kid, [o.word]⟩, none, some (Tag.soleEmitter tag)⟩], false⟩)

/-- CALL (R202). -/
def execCall (f : StdForm) (s : State) : Result :=
  withFiring s fun g s =>
    emitResult (.call f) g (wordLoop (fun j s =>
      match forwardStep (.call f) g (fun j => operand (.call f) g 0 j) j s with
      | .error s1 => .error s1
      | .ok (s1, .data fmt w) => .ok (s1.callWord f g j (.data fmt w), .none)
      | .ok (s1, o) => .ok (s1, o)) s 0 g.n)

/-- The words of RET, one after another (R203). -/
def retWords (f : StdForm) (g : Firing) (s : State) (j : Nat) : Nat → State
  | 0 => s
  | n + 1 =>
    match s.fireWord g .t 1 with
    | .error s1 => s1
    | .ok s1 =>
      if performs (.ret f) g j then
        match ((s1.task? g.task).bind fun t => t.context? g.tag.ctx).bind (·.route) with
        | none => s1.raiseIll g.task g.src g.tag 0x10
        | some _ =>
          match s1.countOr g.task g.src g.tag (g.instAt j) .exit with
          | .error s2 => s2
          | .ok s2 => retWords f g (s2.hold g.task (g.instAt j) (.ret (operand (.ret f) g 0 j))) (j + 1) n
      else retWords f g s1 (j + 1) n

/-- RET (R203). -/
def execRet (f : StdForm) (s : State) : Result := withFiring s fun g s => retWords f g s 0 g.n

/-! ### Identity (R211, R212) -/

/-- ITERV (R211). -/
def execIterv (f : StdForm) (s : State) : Result :=
  withFiring s fun g s => emitResult (.iterv f) g (wordLoop (forwardStep (.iterv f) g fun j =>
    .data 0 ((g.tag.iter + BitVec.ofNat 12 j).zeroExtend 32)) s 0 g.n)

/-- CTXV (R211). -/
def execCtxv (f : StdForm) (s : State) : Result :=
  withFiring s fun g s => emitResult (.ctxv f) g (wordLoop (forwardStep (.ctxv f) g fun _ =>
    .data 0 (g.tag.ctx.zeroExtend 32)) s 0 g.n)

/-- Field `k` of a work identifier (R323). -/
def widField (widths : List Nat) (k : Nat) (wid : BitVec 64) : Nat :=
  let w := widths.getD k 0
  wid.toNat / 2 ^ (64 - (widths.take k).sum - w) % 2 ^ w

/-- WORKID (R212). -/
def execWorkid (f : StdForm) (s : State) : Result :=
  withFiring s fun g s =>
    let v := match s.task? g.task with
      | some t => match t.context? g.tag.ctx with
        | some c => widField t.tcb.widths (bits f.lit 2 0) c.wid
        | none => 0
      | none => 0
    let w : Word := BitVec.ofNat 32 (if f.lit.getLsbD 3 then v / 2 ^ 32 else v)
    emitResult (.workid f) g (wordLoop (forwardStep (.workid f) g fun _ => .data 0 w) s 0 g.n)

/-! ### Combining (R214 to R216) -/

/-- COMB's operation and its class (R214, R215). -/
def combWords (op : Nat) (a b : Word) : FRes × CostClass :=
  match op with
  | 0 => ((a + b, 0), .i)
  | 1 => (fadd a b, .f)
  | 2 => ((if b.toInt < a.toInt then b else a, 0), .i)
  | 3 => ((if a.toInt < b.toInt then b else a, 0), .i)
  | 4 => (fmin a b, .f)
  | 5 => (fmax a b, .f)
  | 6 => ((a &&& b, 0), .i)
  | 7 => ((a ||| b, 0), .i)
  | _ => ((a ^^^ b, 0), .i)

/-- The format that an operation of COMB takes. -/
def combFmt (op : Nat) : BitVec 3 := if op = 1 ∨ op = 4 ∨ op = 5 then 1 else 0

/-- The accumulation of one iteration. -/
def sameAccum (g : Firing) (iter : BitVec 12) (a : Accum) : Bool :=
  a.site == g.site && a.tag.blk == g.tag.blk && a.tag.inst == g.tag.inst && a.tag.ctx == g.tag.ctx &&
    a.tag.path == g.tag.path && a.tag.pdep == g.tag.pdep && a.iter == iter

/-- The spilled token that holds an accumulation comes back when an arrival needs it (R48, R162). -/
def State.fetchAccum (s : State) (g : Firing) (iter : BitVec 12) : Except State State :=
  match s.task? g.task with
  | none => .ok s
  | some t =>
    match (t.accums.find? fun a => sameAccum g iter a && a.slot.isSome) with
    | none => .ok s
    | some a =>
      let back := fun (b : Accum) => { b with slot := none }
      s.spillIn g.task g.site (t.accums.filter fun b => b.slot == a.slot).length fun t =>
        { t with accums := modifyWhere (fun b => b.slot == a.slot) back t.accums }

/-- The accumulations of a run that find no room open to their context spill as one token (R42, R162). -/
def State.settleRun (s : State) (g : Firing) (run : Nat) : Except State State :=
  match s.task? g.task with
  | none => .ok s
  | some t =>
    let ours := t.accums.filter fun a => a.run == run && a.site == g.site && a.slot.isNone
    let rest := t.accums.filter fun a => !(a.run == run && a.site == g.site && a.slot.isNone)
    let fits := fun (n : Nat) => { t with accums := rest ++ ours.take n }.openTo (s.setsOf t.id) g.site g.tag.ctx 0 0
    let n := ((List.range (ours.length + 1)).reverse.find? fits).getD 0
    match ours.drop n with
    | [] => .ok s
    | a :: as =>
      let span := as.foldl (fun m b => Nat.max m ((b.iter - a.iter).toNat + 1)) 1
      match s.spillOut g.task g.site g.src { a.tag with iter := a.iter } (as.length + 1) span with
      | .error s1 => .error s1
      | .ok (k, s1) => .ok (s1.withTask g.task fun t =>
          { t with accums := rest ++ ours.take n ++ (a :: as).map fun b => { b with slot := some k } })

/-- The runs that an arrival opened or brought back find their places. -/
def State.settleRuns (s : State) (g : Firing) : List Nat → Except State State
  | [] => .ok s
  | r :: rs =>
    match s.settleRun g r with
    | .error s1 => .error s1
    | .ok s1 => s1.settleRuns g rs

/-- The accumulation after a word, and what the word debits. -/
def combStep (op : Nat) (acc : Option Gathered) (o : Out) : Option Gathered × BitVec 5 × CostClass :=
  match acc, o with
  | none, .data fmt w => (some ⟨0, fmt, w⟩, 0, .t)
  | some x, .data _ w =>
    match combWords op x.word w with
    | ((r, fl), cls) => (some { x with word := r }, fl, cls)
  | a, _ => (a, 0, .t)

/-- An accumulation with its new contents, at its place among the task's; a new one comes last. -/
def setAccum (g : Firing) (a : Accum) (as : List Accum) : List Accum :=
  if as.any (sameAccum g a.iter) then modifyWhere (sameAccum g a.iter) (fun _ => a) as else as ++ [a]

/-- One arrival at one iteration (R215). -/
def State.combArrive (s : State) (f : StdForm) (g : Firing) (run j : Nat) : Except State (State × Out) :=
  let iter := g.tag.iter + BitVec.ofNat 12 j
  match s.fetchAccum g iter with
  | .error s1 => .error s1
  | .ok s1 =>
    match s1.task? g.task with
    | none => .ok (s1, .none)
    | some t =>
      let old := (t.accums.find? (sameAccum g iter)).getD ⟨g.site, g.tag, iter, none, 0, run, none⟩
      match combStep (combOp f.lit) old.acc (tokenOut g.a j) with
      | (acc, fl, cls) =>
        match s1.fireWord g cls 1 with
        | .error s2 => .error s2
        | .ok s2 =>
          let s3 := s2.raiseFlags g.task (g.instAt j) fl
          if old.count + 1 = combCount f.lit then
            .ok (s3.withTask g.task fun t => { t with accums := t.accums.filter fun a => !sameAccum g iter a },
              match acc with
              | some x => .data x.fmt x.word
              | none => .null)
          else .ok (s3.withTask g.task fun t =>
            { t with accums := setAccum g { old with acc := acc, count := old.count + 1 } t.accums }, .none)

/-- The runs of the spilled accumulations that an arrival needs. -/
def State.spilledRuns (s : State) (g : Firing) : List Nat :=
  match s.task? g.task with
  | none => []
  | some t => ((t.accums.filter fun a => a.slot.isSome && (List.range g.n).any fun j =>
      sameAccum g (g.tag.iter + BitVec.ofNat 12 j) a).map (·.run)).eraseDups

/-- COMB (R215, R216). -/
def execComb (f : StdForm) (s : State) : Result :=
  withFiring s fun g s =>
    match g.a with
    | none => s
    | some t =>
      if t.tag.fmt ≠ 7 ∧ t.tag.fmt ≠ combFmt (combOp f.lit) then s.raiseFmt g.task g.src t 0x04 (t.words.headD 0)
      else
        let run := s.fresh
        emitResult (.comb f) g
          (match wordLoop (fun j s => s.combArrive f g run j) s.freshen 0 g.n with
           | .error s1 => .error s1
           | .ok (s1, outs) =>
             match s1.settleRuns g (run :: s.spilledRuns g) with
             | .error s2 => .error s2
             | .ok s2 => .ok (s2, outs))

end Sys2Proof.Machine
end

