-- ==== Sys2Proof/Machine/Scope.lean ====
section
/-!
DEFINITION. Performance at a scope (R256, R288, R293, R305, R311): which operations a FENCE waits for, when one of them has
performed at a scope, and the words that an ordering point holds back for the agents within a scope.
-/

namespace Sys2Proof.Machine

/-- Memory at an address lies outside scope `sc` of a task (R293). -/
def Task.outside (t : Task) (sc a : Nat) : Bool :=
  match sc, regionOf a with
  | 0, .scratch h | 0, .operand h => h != t.hoop
  | 0, _ => true
  | 1, .scratch h | 1, .operand h => h / 16 != t.tower
  | 1, .dram k | 1, .shared k _ => k != t.tower
  | 1, _ => true
  | 2, .host _ => true
  | _, _ => false

/-- The operations a FENCE waits for (R288): reads, at-once operations (R256), and engine and remote commands. -/
def fenced (i : Instr) : Bool :=
  isCommand i || (match i with
    | .ld _ _ _ | .ldv _ _ | .sopenRead _ _ | .sopenWrite _ _ | .sindRead _ _ | .sindWrite _ _ | .iread _ => true
    | .aadd f | .afadd f | .amin f | .amax f | .aminu f | .amaxu f | .aand f | .aor f | .axor f | .aswap f | .acas f
    | .afmin f | .afmax f => f.t0 != noTarget
    | .atomsc _ _ | .lock _ | .unlock _ | .qput _ | .qget _ => true
    | _ => false)

/-- A request that waits at its bank has passed every ordering point on its way. -/
def waitsAtBank : Instr → Bool
  | .lock _ | .qput _ | .qget _ | .atomsc _ _ => true
  | _ => false

/-- The reply to a word of an operation is on its way, so that the word has performed (R294). -/
def State.replied (s : State) (id op j : Nat) : Bool :=
  s.agenda.any fun x => match x with
    | .event (.bankReply id' op' j' _) | .event (.remoteAtomicReply id' op' j' _ _) => id' == id && op' == op && j' == j
    | _ => false

/-- A part of a word of a command is on its way within the package itself. -/
def State.bound (s : State) (x : Sender) (op j : Nat) : Bool :=
  s.agenda.any fun e => match e with
    | .event (.rowLanding r) => r.sender == x && r.op == op && r.j == j
    | .event (.remoteAtomicReceive m) => m.sender == x && m.op == op && m.j == j
    | .event (.rewardArrival m) => m.sender == x && m.op == op && m.j == j
    | _ => false

/-- The work of a command. -/
def State.work? (s : State) (id op j : Nat) : Option EngineWork := s.works.find? fun w => w.task == id && w.op == op && w.j == j
def State.withWork (s : State) (id op j : Nat) (f : EngineWork → EngineWork) : State :=
  { s with works := modifyWhere (fun w => w.task == id && w.op == op && w.j == j) f s.works }
def State.dropWork (s : State) (id op j : Nat) : State :=
  { s with works := s.works.filter fun w => !(w.task == id && w.op == op && w.j == j) }

/-- Every line that a command has sent and that has not performed lies outside a scope. -/
def EngineWork.past (w : EngineWork) (t : Task) (sc : Nat) : Bool :=
  w.told && w.lines.all fun l => l.words.all fun x => t.outside sc x.1

/-- A word of an operation has performed at a scope: at its memory, or, where that lies outside the scope, past the scope's
ordering point (R293). What a remote command sends to another package has passed it once it has left (R305). -/
def State.performedAt (s : State) (t : Task) (o : OpRec) (j sc : Nat) : Bool :=
  let w := o.at j
  w.stage == .done || s.replied t.id o.id j ||
    (waitsAtBank o.instr && w.stage == .queued && t.outside sc w.pa) ||
    (match o.instr with
     | .remwr _ | .rematom _ | .rwsend _ => w.stage == .sent && decide (sc ≤ 2) && !s.bound ⟨s.node, t.id⟩ o.id j
     | _ => (s.work? t.id o.id j).any fun k => k.past t sc)

/-- An operation that began before `cut`, and that a FENCE waits for, has not performed at a scope (R288). -/
def State.fencePending (s : State) (t : Task) (cut sc : Nat) : Bool :=
  t.ops.any fun o => decide (o.id < cut) && fenced o.instr && (List.range o.words.length).any fun j => !s.performedAt t o j sc

/-- What has passed the ordering point of a scope is ahead of every later access of the agents within it (R293). -/
def State.promise (s : State) (id cut sc : Nat) : State :=
  let raise := fun (l : OutLine) => { l with scope := some (Nat.max sc (l.scope.getD 0)) }
  { s with works := modifyWhere (fun w => w.task == id && decide (w.op < cut) && w.told) (fun w => { w with lines := w.lines.map raise }) s.works }

/-! ### Writes of a command at their memory (R292, R310, R431) -/

/-- Write words one by one as plain writes. -/
def State.writeWords (s : State) (key : BitVec 12) (who : Writer) : List (Nat × Word) → State
  | [] => s
  | (a, w) :: ws => (s.plainWrite a (bytesOfNat w.toNat 4) key who).writeWords key who ws

/-- Words of one line are written: a whole line as one write, any other word by word (R431). -/
def State.writeLineWords (s : State) (key : BitVec 12) (who : Writer) (ws : List (Nat × Word)) : State :=
  let base := lineOf ((ws.head?.map (·.1)).getD 0)
  let whole := (List.range 16).map fun k => (ws.reverse.find? fun x => x.1 == base + 4 * k).map (·.2)
  if whole.all Option.isSome then s.plainWrite base (whole.flatMap fun w => bytesOfNat (w.getD 0).toNat 4) key who
  else s.writeWords key who ws

/-- A line of a command performs at its memory. One with words from a line whose code failed carries such a code on: it fails
every later check (R431). -/
def State.performLine (s : State) (who : Writer) (l : OutLine) : State :=
  let s1 := s.writeLineWords l.key who l.words
  let a := lineOf ((l.words.head?.map (·.1)).getD 0)
  if l.bad && !s1.poison.contains a then { s1 with poison := a :: s1.poison } else s1

/-- The writer that the error log names for a command of a task. -/
def State.commandWriter (s : State) (id : Nat) : Writer := ((s.task? id).map fun t => slotWriter t.slot).getD partWriter

/-- Of a command's lines on their way, those that `p` selects perform. -/
def State.performLines (s : State) (w : EngineWork) (p : OutLine → Bool) : State :=
  let s1 := (w.lines.filter p).foldl (fun s l => s.performLine (s.commandWriter w.task) l) s
  s1.withWork w.task w.op w.j fun w => { w with lines := w.lines.filter fun l => !p l }

/-- The agents of hoop `h`, or of a whole tower where it is `none`, within a scope of the task `t`. -/
def Task.within (t : Task) (sc tower : Nat) (h : Option Nat) : Bool :=
  match sc with
  | 0 => match h with
    | some h => h == t.hoop
    | none => tower == t.tower
  | 1 => tower == t.tower
  | _ => true

/-- An agent comes to memory: what has passed an ordering point ahead of its access performs first (R293). `line` is the line
it accesses, where that is known. -/
def State.settleFor (s : State) (tower : Nat) (h line : Option Nat) : State :=
  s.works.foldl (fun s w => match s.task? w.task with
    | some t => s.performLines w fun l => match l.scope with
      | some sc => t.within sc tower h && (match line with
        | some a => lineOf ((l.words.head?.map (·.1)).getD 0) == a
        | none => true)
      | none => false
    | none => s) s

/-- The access that an event makes to memory, if it makes one: the task's hoop, or its tower's engines, and the line. -/
def State.settleBefore (s : State) (e : Instr) : State :=
  let word := fun (id op j : Nat) => match s.op? id op with
    | some (t, o) => s.settleFor t.tower (some t.hoop) (some (lineOf (o.at j).pa))
    | none => s
  let any := fun (s : State) (id : Nat) => match s.task? id with
    | some t => s.settleFor t.tower (some t.hoop) none
    | none => s
  match e with
  | .readComplete id op j | .structRequest id op j | .structPoolWaitEnd id op j => word id op j
  | .bankOperation id op j => match s.op? id op with
    | some (_, o) => match o.instr with
      | .qput _ | .qget _ => any s id
      | _ => word id op j
    | none => s
  | .atomscTokenVisit _ => (s.tasks.map (·.id)).foldl (fun s id => any s id) s
  | .queuePutServe id _ _ | .queueGetServe id _ _ | .engineCommandComplete id _ _ | .enginePortDepart id _ _ => any s id
  | .streamEngineAcquire id _ _ | .streamElementAccess id _ | .commitDrain id | .oploadComplete id _ _ | .mmaComplete id _ _ => any s id
  | .engineCommandStart k _ => s.settleFor k none none
  | _ => s

end Sys2Proof.Machine
end

