-- ==== Sys2Proof/Machine/Barrier.lean ====
section
/-!
DEFINITION. Barriers, phases and fences (R283 to R288).
-/

namespace Sys2Proof.Machine

/-- A sink sets its arrival bit; when every sink's bit is set the count rises by one and the bits clear. -/
def Barrier.arrive (b : Barrier) (k : BitVec 7 × BitVec 7) : Barrier :=
  let got := b.arrived ++ [k]
  if b.sinks.all got.contains then { b with arrived := [], count := b.count + 1 } else { b with arrived := got }

/-- The barrier with an id, or the task's phase. -/
def Task.barrier? (t : Task) (phase : Bool) (ident : Nat) : Option Barrier :=
  if phase then some t.phases else t.barriers.find? fun b => b.ident == ident

def Task.withBarrier (t : Task) (phase : Bool) (ident : Nat) (f : Barrier → Barrier) : Task :=
  if phase then { t with phases := f t.phases } else { t with barriers := modifyWhere (fun b => b.ident == ident) f t.barriers }

/-- The control word that a source emits (R28, R285). -/
def barrierWord (phase : Bool) (ident : Nat) : Word := if phase then 2 else BitVec.ofNat 32 (256 * ident + 3)

/-- A source: one control token for each data word. -/
def sourceFiring (i : Instr) (w : Word) (g : Firing) (s : State) : State :=
  match controlToken g.a with
  | some t => s.raiseFmt g.task g.src t 0x07 (t.words.headD 0)
  | none => emitResult i g (wordLoop (forwardStep i g fun _ => .data 7 w) s 0 g.n)

/-- A sink: on a control token it checks ARG, sets its arrival bit, waiting while the bit is set, and emits the
token. A NULL word counts nothing. -/
def sinkFiring (i : Instr) (phase : Bool) (ident : Nat) (g : Firing) (s : State) : State :=
  match controlToken g.a with
  | some t =>
    let w := t.words.headD 0
    if !phase && bits w 15 8 != ident then s.raiseFmt g.task g.src t 0x08 w
    else if predicateFalse i g 0 || anyNull i g 0 then emitResult i g (wordLoop (fun _ s => nullStep g s) s 0 1)
    else match s.task? g.task with
      | none => s
      | some k =>
        let me := (g.tag.blk, g.tag.inst)
        match k.barrier? phase ident with
        | none => s
        | some b =>
          if b.arrived.contains me then s.block
          else match s.fireWord g .t 1 with
            | .error s1 => s1
            | .ok s1 =>
              let emitted := s1.emitControl g i.fields.tact g.tag [i.fields.t0, i.fields.t1] 7 t.words
              emitted.withTask g.task fun k => k.withBarrier phase ident fun b => b.arrive me
  | none =>
    if (tokenOut g.a 0).isNull then emitResult i g (wordLoop (fun _ s => nullStep g s) s 0 g.n)
    else match g.a with
      | some t => s.raiseFmt g.task g.src t 0x01 (t.words.headD 0)
      | none => s

/-- EOS (R285). -/
def execEos (f : StdForm) (s : State) : Result :=
  withFiring s fun g s =>
    if eosSink f.lit then sinkFiring (.eos f) true 0 g s else sourceFiring (.eos f) (barrierWord true 0) g s

/-- BARR (R285). -/
def execBarr (f : StdForm) (s : State) : Result :=
  withFiring s fun g s =>
    if barrSink f.lit then sinkFiring (.barr f) false (barrId f.lit) g s
    else sourceFiring (.barr f) (barrierWord false (barrId f.lit)) g s

/-- BWAIT's words all have their counts (R287). -/
def bwaitReady (f : StdForm) (g : Firing) (count : BitVec 32) : Bool :=
  (List.range g.n).all fun j => !performs (.bwait f) g j ||
    decide ((count - (operand (.bwait f) g 0 j).word).toNat < 2 ^ 31)

/-- BWAIT (R287). -/
def execBwait (f : StdForm) (s : State) : Result :=
  withFiring s fun g s =>
    match (s.task? g.task).bind fun t => t.barrier? (bwaitPhase f.lit) (barrId f.lit) with
    | none => s
    | some b =>
      if bwaitReady f g b.count then
        emitResult (.bwait f) g (wordLoop (forwardStep (.bwait f) g fun j => operand (.bwait f) g 0 j) s 0 g.n)
      else s.block

/-- FENCE (R288): once what it waits for has performed at its scope, that stays ahead of what the agents within the scope do
later (R293). -/
def execFence (f : StdForm) (s : State) : Result :=
  withFiring s fun g s =>
    match s.task? g.task with
    | none => s
    | some t =>
      let performing := (List.range g.n).any fun j => performs (.fence f) g j
      if performing && s.fencePending t g.cut (fenceScope f.lit) then s.block
      else forwardFiring (.fence f) 0 g.a g (if performing then s.promise t.id g.cut (fenceScope f.lit) else s)

end Sys2Proof.Machine
end

