-- ==== Sys2Proof/Machine/Leave.lean ====
section
/-!
DEFINITION. Leave (R376, R377): the steps that operations state to a domain's meter, their wait and
their release. LEAVE_CEILING_RAISE of the charge family grants what is asked here.
-/

namespace Sys2Proof.Machine

/-- The pump limit of a domain, in 0.125 A (R351). -/
def pumpLimit (dom : Nat) : Nat := if dom = 4 then 192 else 96

/-- A step of `units` (0.125 A at 0.80 V) at the domain's fill voltage (R376). -/
def State.leaveStep (s : State) (h dom units : Nat) : Nat := (units * (s.domain h dom).cur.toNat + 799) / 800

/-- An operation asks the domain's meter for leave; it is answered in arrival order (R377). -/
def State.askLeave (s : State) (h dom : Nat) (who : Reader) (step : Nat) : State :=
  (s.withDomain h dom fun d => { d with leaves := d.leaves ++ [(who, step)] }).push (.leaveCeilingRaise h dom)

/-- The step an operation holds while it runs: no more than the pump limit (R377). -/
def heldStep (dom step : Nat) : Nat := Nat.min step (pumpLimit dom)

/-- Whether the operation at the head of the meter's queue may start (R377). -/
def Domain.mayStart (d : Domain) (dom step : Nat) : Bool :=
  decide (d.committed + step ≤ d.ceil) ||
    (decide (pumpLimit dom < step) && d.committed == 0 && d.ceil == pumpLimit dom)

/-- An operation finishes and gives back its committed leave (R376). -/
def State.releaseLeave (s : State) (h dom step : Nat) : State :=
  s.withDomain h dom fun d => { d with committed := d.committed - step }

end Sys2Proof.Machine
end

