-- ==== Sys2Proof/Machine/Vector.lean ====
section
/-!
DEFINITION. The vector and format instructions (R159 to R179): runs reshaped, packed lanes, conversion,
headers and quantisation on send.
-/

namespace Sys2Proof.Machine

/-! ### Packed pairs and dot products (R161, R169) -/

/-- The lane format of a packed format. -/
def laneFmt (fmt : BitVec 3) : FloatFmt := if fmt = 3 then fmtH16 else fmtBF16

/-- Lane 0 or lane 1 of a packed word. -/
def lane (w : Word) (k : Nat) : Nat := w.toNat / 2 ^ (16 * k) % 2 ^ 16

def laneValue (fmt : BitVec 3) (w : Word) (k : Nat) : FVal := (laneFmt fmt).decode (lane w k)

/-- Deliver a computed value in a format, rounded once in a mode. -/
def FloatFmt.deliver (f : FloatFmt) (mode : Mode) (sat : Bool) (r : FVal × BitVec 5) : Nat × BitVec 5 :=
  match r.1 with
  | .nan s => (f.nan, r.2 ||| nvIf s)
  | .inf s => (f.inf s, r.2)
  | .fin s m e => match f.round mode sat s m e with
    | (v, fl) => (v, r.2 ||| fl)

/-- Two lanes packed into a word, their flags ORed. -/
def packLanes (l0 l1 : Nat × BitVec 5) : Word × BitVec 5 := (BitVec.ofNat 32 (l0.1 + 2 ^ 16 * l1.1), l0.2 ||| l1.2)

/-- Round16 of both lanes of a packed operation. -/
def packed (fmt : BitVec 3) (op : FVal → FVal → FVal → FVal × BitVec 5) (a b c : Word) : Word × BitVec 5 :=
  let one := fun k => (laneFmt fmt).deliver .rne false (op (laneValue fmt a k) (laneValue fmt b k) (laneValue fmt c k))
  packLanes (one 0) (one 1)

def padd2 (fmt : BitVec 3) (a b c : Word) : Word × BitVec 5 := packed fmt (fun x y _ => x.add y) a b c
def pmul2 (fmt : BitVec 3) (a b c : Word) : Word × BitVec 5 := packed fmt (fun x y _ => x.mul y) a b c
def pfma2 (fmt : BitVec 3) (a b c : Word) : Word × BitVec 5 := packed fmt (fun x y z => x.fma y z) a b c

/-- DOT2: the exact sum of the addend and the two lane products, rounded once. The products are added first, which settles NV
for opposite infinities beside a quiet NaN (log entry 129). -/
def dot2 (fmt : BitVec 3) (a b c : Word) : Word × BitVec 5 :=
  match (laneValue fmt b 0).mul (laneValue fmt c 0), (laneValue fmt b 1).mul (laneValue fmt c 1) with
  | (p, fp), (q, fq) =>
    match p.add q with
    | (pq, fpq) => match (f32 a).add pq with
      | (r, fr) => finish32 (r, fp ||| fq ||| fpq ||| fr)

/-- S8 of byte `k` of a word. -/
def byteInt (w : Word) (k : Nat) : Int := (w.extractLsb' (8 * k) 8).toInt

/-- DOT4. -/
def dot4 (a b c : Word) : Word :=
  Word.wrap (a.toInt + byteInt b 0 * byteInt c 0 + byteInt b 1 * byteInt c 1 + byteInt b 2 * byteInt c 2 +
    byteInt b 3 * byteInt c 3)

/-- The token formats on the packed ports of a set, NULL tokens apart. -/
def packedTokens (i : Instr) (g : Firing) (ports : List (BitVec 2)) : List Token :=
  ports.filterMap fun p =>
    if i.takesToken p then
      match (match p with
        | 0 => g.a
        | 1 => g.b
        | _ => g.c) with
      | some t => if t.tag.fmt = 7 then none else some t
      | none => none
    else none

/-- A packed instruction: its packed ports share one format, or the task takes F_FMT (R161). -/
def packedFiring (i : Instr) (ports : List (BitVec 2)) (result : BitVec 3 → BitVec 3)
    (op : BitVec 3 → Word → Word → Word → Word × BitVec 5) (s : State) : Result :=
  withFiring s fun g s =>
    match packedTokens i g ports with
    | [] => compute i 2 (op 2) g s
    | t :: ts =>
      if ts.any fun u => u.tag.fmt != t.tag.fmt then s.raiseFmt g.task g.src t 0x04 (t.words.headD 0)
      else compute i (result t.tag.fmt) (op t.tag.fmt) g s

def execPadd2 (f : StdForm) (s : State) : Result := packedFiring (.padd2 f) [0, 1] id padd2 s
def execPmul2 (f : StdForm) (s : State) : Result := packedFiring (.pmul2 f) [0, 1] id pmul2 s
def execPfma2 (f : StdForm) (s : State) : Result := packedFiring (.pfma2 f) [0, 1, 2] id pfma2 s
def execDot2 (f : StdForm) (s : State) : Result := packedFiring (.dot2 f) [1, 2] (fun _ => 1) dot2 s

def execDot4 (f : StdForm) (s : State) : Result :=
  withFiring s fun g s => compute (.dot4 f) 0 (fun a b c => (dot4 a b c, 0)) g s

/-! ### Conversion (R170 to R173) -/

/-- Whether a FORM saturates, and its mode (R92). -/
def formSaturates (form : Nat) : Bool := decide (4 ≤ form)

/-- I32 to F32. -/
def i32ToF32 (form : Nat) (w : Word) : FRes :=
  toWord (fmtF32.round (modeOf form) (formSaturates form) (decide (w.toInt < 0)) w.toInt.natAbs 0)

/-- F32 to I32 (R172). -/
def f32ToI32 (form : Nat) (w : Word) : FRes :=
  match f32 w with
  | .nan _ => (0, flagNV)
  | .inf s => (if s then 0x80000000#32 else 0x7FFFFFFF#32, flagNV)
  | .fin s m e =>
    match roundAt (modeOf form) s m e 0 with
    | (n, inexact) =>
      let v := signedMag s n
      if v < -2147483648 then (0x80000000#32, flagNV)
      else if 2147483647 < v then (0x7FFFFFFF#32, flagNV)
      else (Word.wrap v, nxIf inexact)

/-- A value converted between floating-point formats: a signalling NaN raises NV (R171). -/
def convert (dst : FloatFmt) (form : Nat) (v : FVal) : Nat × BitVec 5 :=
  dst.deliver (modeOf form) (formSaturates form) (v, 0)

/-- The value of a C4 code under a scale, decoded to F32 (R65). -/
def decodeC4 (entry : BitVec 16) (scale : BitVec 8) : FRes :=
  if scale = 0xFF then (nan32, 0)
  else match fmtBF16.decode entry.toNat with
    | .nan _ => (nan32, 0)
    | .inf s => (BitVec.ofNat 32 (fmtF32.inf s), 0)
    | .fin s m e => toWord (fmtF32.round .rne false s m (e + scale.toNat - 127))

/-- The value of an INT8 lane under a scale, decoded to F32 (R66). -/
def decodeI8 (q : Int) (scale : BitVec 8) : FRes :=
  if scale = 0xFF then (nan32, 0)
  else toWord (fmtF32.round .rne false (decide (q < 0)) q.natAbs ((scale.toNat : Int) - 127))

/-- CVT's operation on one word (R171). `cb` is the codebook its literal names. -/
def cvtWord (lit : Word) (cb : List (BitVec 16)) (scale : BitVec 8) (w : Word) : Word × BitVec 5 :=
  let form := cvtForm lit
  let l := cvtLane lit
  match (cvtSfmt lit).toNat, (cvtDfmt lit).toNat with
  | 0, _ => i32ToF32 form w
  | 1, 0 => f32ToI32 form w
  | 1, d => match convert (laneFmt (BitVec.ofNat 3 d)) form (f32 w) with
    | (v, fl) => (BitVec.ofNat 32 (v * 2 ^ (16 * l)), fl)
  | 2, 1 => toWord (convert fmtF32 0 (laneValue 2 w l))
  | 3, 1 => toWord (convert fmtF32 0 (laneValue 3 w l))
  | 2, _ => packLanes (convert fmtH16 form (laneValue 2 w 0)) (convert fmtH16 form (laneValue 2 w 1))
  | 3, _ => packLanes (convert fmtBF16 form (laneValue 3 w 0)) (convert fmtBF16 form (laneValue 3 w 1))
  | 4, _ => decodeC4 (cb.getD (w.extractLsb' (4 * l) 4).toNat 0) scale
  | _, _ => decodeI8 (byteInt w l) scale

/-- The instruction and port a detoured token was first sent to (R25, R173). -/
def rdirInst (r : BitVec 9) : BitVec 7 := r.extractLsb' 2 7
def rdirPort (r : BitVec 9) : BitVec 2 := r.extractLsb' 0 2

/-- Whether the port a detoured token came from accepts the node's result. -/
def State.takesBack (s : State) (g : Firing) (rdir : BitVec 9) (fmt : BitVec 3) : Bool :=
  match s.task? g.task with
  | none => true
  | some t => match t.instr? g.tag.blk (rdirInst rdir) with
    | some i => (i.accepts (rdirPort rdir)).fmts.getLsbD fmt.toNat
    | none => false

/-- The results of a conversion of detoured words go to the instruction and port that RDIR names, with
KEEP (R173). A result that port does not accept faults the task. -/
def State.emitBack (s : State) (g : Firing) (rdir : BitVec 9) (fmt : BitVec 3) (outs : List Out) : State :=
  let bad := outs.find? fun o => match o with
    | .data _ _ => true
    | _ => false
  match bad with
  | some o =>
    if s.takesBack g rdir fmt then s.emitOuts g .keep g.tag [rdirPort rdir ++ rdirInst rdir] outs
    else
      let tag : Tag := { g.tag with inst := rdirInst rdir, port := rdirPort rdir, fmt := fmt, rdir := none }
      s.raiseFmt g.task g.src ⟨tag, outs.map Out.word⟩ 0x06 o.word
  | none => s.emitOuts g .keep g.tag [rdirPort rdir ++ rdirInst rdir] outs

/-- The codebook a literal names, in the hoop of the firing's task. -/
def State.codebook (s : State) (g : Firing) (n : Nat) : List (BitVec 16) :=
  match s.task? g.task with
  | some t => (s.hoop t.hoop).codebooks.getD n []
  | none => []

/-- CVT (R170 to R173). A literal that R171 does not list is never placed; were it to fire, the task would
take the fault that its placement gives, F_ILL with REASON 0x04. -/
def execCvt (f : StdForm) (s : State) : Result :=
  withFiring s fun g s =>
    if !cvtLitOk f.lit then s.raiseIll g.task g.src g.tag 0x04
    else
      let op := fun a _ _ => cvtWord f.lit (s.codebook g (cvtCb f.lit)) g.scale a
      match g.a.bind fun t => t.tag.rdir with
      | none => compute (.cvt f) (cvtDfmt f.lit) op g s
      | some r => fireWords (computeStep (.cvt f) g (cvtDfmt f.lit) op) g s fun s outs => s.emitBack g r (cvtDfmt f.lit) outs

/-! ### Scale headers (R177) -/

/-- HDRT's operation. -/
def hdrtWord (a b : Word) : Word × BitVec 5 :=
  let scale := a.extractLsb' 0 8
  let e : Int := scale.toNat + b.toInt
  let put := fun (n : Nat) => (a &&& 0xFFFFFF00#32) ||| BitVec.ofNat 32 n
  if scale = 0xFF then (put 0xFF, 0)
  else if 254 < e then (put 0xFE, flagOF ||| flagNX)
  else if e < 0 then (put 0, flagUF ||| flagNX)
  else (put e.toNat, 0)

def execHdrt (f : StdForm) (s : State) : Result :=
  withFiring s fun g s => compute (.hdrt f) 6 (fun a b _ => hdrtWord a b) g s

/-! ### SPLIT (R164) -/

/-- The stretches of a result between the boundaries of `2^l` iterations, with their places. -/
def splitRuns (l : Nat) (iter : BitVec 12) : Nat → List Out → List (Nat × List Out)
  | _, [] => []
  | j, o :: os =>
    match splitRuns l iter (j + 1) os with
    | [] => [(j, [o])]
    | r :: rs =>
      if (iter + BitVec.ofNat 12 (j + 1)).toNat % 2 ^ l = 0 then (j, [o]) :: r :: rs else (j, o :: r.2) :: rs

/-- SPLIT. Each stretch leaves as the pieces of R136, to t0 and then t1. -/
def execSplit (f : StdForm) (s : State) : Result :=
  withFiring s fun g s =>
    match wordLoop (forwardStep (.split f) g fun j => operand (.split f) g 0 j) s 0 g.n with
    | .error s1 => s1
    | .ok (s1, outs) =>
      let oq := s1.fresh
      let ps := (splitRuns (litL f.lit) g.tag.iter 0 outs).flatMap fun r => pieces r.1 r.2
      ps.foldl (fun s p => [f.t0, f.t1].foldl (fun s t => s.emitPiece g oq f.tact g.tag t p) s) s1.freshen

/-! ### Gathering (R162, R163) -/

/-- Put an element in its place in a list that rises by a key. -/
def insertBy {α : Type} (key : α → Nat) (x : α) : List α → List α
  | [] => [x]
  | y :: ys => if key x < key y then x :: y :: ys else y :: insertBy key x ys

def sortBy {α : Type} (key : α → Nat) (l : List α) : List α := l.foldr (insertBy key) []

def gatheredOut (w : Gathered) : Out := if w.fmt = 7 then .null else .data w.fmt w.word

/-- The words of a window of `n` iterations, `none` where it lacks one. -/
def windowOuts (win : List Gathered) (n : Nat) : List Out :=
  (List.range n).map fun k => match win.find? fun w => w.off == k with
    | some w => gatheredOut w
    | none => .none

/-- The words that a control token of a gathering instruction flushes (R163). -/
def Task.heldFor (t : Task) (g : Firing) : List Wait := t.waiting.filter fun w => w.held && g.flush.isSome && w.flush == g.flush

/-- The order of iterations in their window, oldest first; those the window has left come before it. -/
def Task.windowAge (t : Task) (blk : BitVec 7) (ctx iter : BitVec 12) : Nat :=
  match t.window? blk ctx with
  | some w => (iter - w.base + 2048).toNat
  | none => iter.toNat

/-- The base of the window of `size` iterations that an iteration lies in. -/
def windowBase (size : Nat) (iter : BitVec 12) : BitVec 12 := iter - BitVec.ofNat 12 (iter.toNat % size)

/-- The incomplete windows of a control token's context and path, in ascending order of base. -/
def Task.heldWindows (t : Task) (g : Firing) (size : Nat) : List (BitVec 12 × List Gathered) :=
  let ws := t.heldFor g
  let bases := sortBy (t.windowAge g.tag.blk g.tag.ctx) ((ws.map fun w => windowBase size w.tok.tag.iter).eraseDups)
  bases.map fun b => (b, (ws.filter fun w => windowBase size w.tok.tag.iter == b).map fun w =>
    ⟨(w.tok.tag.iter - b).toNat, w.tok.tag.fmt, w.tok.words.headD 0⟩)

/-- The spilled words among those a flush takes are brought back: one DRAM line each (R49, R162), and no word is held any
longer (R48). -/
def State.bringBack (s : State) (g : Firing) (ws : List Wait) : Except State State :=
  match s.task? g.task with
  | none => .ok s
  | some t =>
    match s.debitLines g (t.domainOf g.site) .dram (ws.filter fun w => w.slot.isSome).length with
    | .error s1 => .error s1
    | .ok s1 =>
      .ok (s1.withTask g.task fun t => t.settleSpill { t with waiting := t.waiting.filter fun w => !ws.contains w })

/-- A set of a gathering instruction is either a complete window, or a control token that flushes the
incomplete windows of its context and path (R163): the windows to emit, and the state that no longer
holds their words. -/
def State.gathered (s : State) (g : Firing) (size : Nat) : Except State (State × List (BitVec 12 × List Gathered)) :=
  match controlToken g.a with
  | none => .ok (s, [(g.tag.iter, g.win)])
  | some _ =>
    match s.task? g.task with
    | none => .ok (s, [])
    | some t =>
      match s.bringBack g (t.heldFor g) with
      | .error s1 => .error s1
      | .ok s1 => .ok (s1, t.heldWindows g size)

/-- The control token that ends a flush goes to t0 and then t1 (R163). -/
def State.passControl (s : State) (g : Firing) (f : StdForm) : State :=
  match controlToken g.a with
  | some t => s.emitControl g f.tact g.tag [f.t0, f.t1] 7 t.words
  | none => s

/-- Debit T for each word of a window and emit it. -/
def State.emitWindow (s : State) (f : StdForm) (g : Firing) (base : BitVec 12) (outs : List Out) : Except State State :=
  match wordLoop (fun j s => nullStep g s |>.map fun r => (r.1, outs.getD j .none)) s 0 (outs.filter fun o => o != .none).length with
  | .error s1 => .error s1
  | .ok (s1, _) => .ok (s1.emitOuts g f.tact { g.tag with iter := base } [f.t0, f.t1] outs)

/-- Emit windows one after another. -/
def State.emitWindows (s : State) (f : StdForm) (g : Firing) (outsOf : List Gathered → List Out) :
    List (BitVec 12 × List Gathered) → Except State State
  | [] => .ok s
  | (b, w) :: ws =>
    match s.emitWindow f g b (outsOf w) with
    | .error s1 => .error s1
    | .ok s1 => s1.emitWindows f g outsOf ws

/-- A whole firing of JOIN or REORD. -/
def gatherFiring (f : StdForm) (size : Nat) (outsOf : List Gathered → List Out) (g : Firing) (s : State) : State :=
  match s.gathered g size with
  | .error s1 => s1
  | .ok (s1, ws) =>
    match s1.emitWindows f g outsOf ws with
    | .error s2 => s2
    | .ok s2 => s2.passControl g f

/-- JOIN (R166). -/
def execJoin (f : StdForm) (s : State) : Result :=
  withFiring s fun g s => gatherFiring f (2 ^ litL f.lit) (fun w => windowOuts w (2 ^ litL f.lit)) g s

/-- REORD's permutation (R167): the word emitted at place `k` is the one received at `row × Q + col`, with
`k = col × P + row`. A window that lacks an iteration takes a NULL word there. -/
def reordOuts (lp lq : Nat) (win : List Gathered) : List Out :=
  let p := 2 ^ lp
  let q := 2 ^ lq
  let ins := windowOuts win (p * q)
  (List.range (p * q)).map fun k => match ins.getD (k % p * q + k / p) .none with
    | .none => .null
    | o => o

/-- REORD (R167, R168). -/
def execReord (f : StdForm) (s : State) : Result :=
  withFiring s fun g s =>
    gatherFiring f (2 ^ (litLP f.lit + litLQ f.lit)) (reordOuts (litLP f.lit) (litLQ f.lit)) g s

/-! ### Quantisation on send (R78, R79, R178, R179) -/

/-- A finite value as a multiple of 2^−400, exact for every F32 and BF16 value scaled by 2^−127 to 2^127. -/
def fixed (v : FVal) (shift : Int) : Int :=
  match v with
  | .fin s m e => signedMag s (m * 2 ^ (e + shift + 400).toNat)
  | _ => 0

/-- The smallest exponent `e` with `m × 2^a ≤ c × 2^b × 2^e`, for nonzero `m` and `c`. -/
def quantExp (m : Nat) (a : Int) (c : Nat) (b : Int) : Int :=
  let k : Int := (Nat.log2 m : Int) + a - Nat.log2 c - b
  let lhs := a - b - k
  if 0 ≤ lhs then (if m * 2 ^ lhs.toNat ≤ c then k else k + 1)
  else (if m ≤ c * 2 ^ (-lhs).toNat then k else k + 1)

/-- The largest magnitude among finite values. -/
def largest (vs : List FVal) : Nat × Int :=
  vs.foldl (fun acc v => match v with
    | .fin _ m e => if m = 0 then acc
      else if acc.1 = 0 ∨ fixed (.fin false acc.1 acc.2) 0 < fixed (.fin false m e) 0 then (m, e) else acc
    | _ => acc) (0, 0)

/-- The index of the best entry: the least cost, and among equals the lowest index. -/
def bestIndex (cost : FVal → Option Nat) (k : Nat) : List FVal → Option (Nat × Nat)
  | [] => none
  | v :: vs =>
    match cost v, bestIndex cost (k + 1) vs with
    | none, r => r
    | some c, none => some (c, k)
    | some c, some (c', k') => if c ≤ c' then some (c, k) else some (c', k')

def FVal.isFinite : FVal → Bool
  | .fin _ _ _ => true
  | _ => false

/-- The index of the finite entry nearest to a value (R78). -/
def nearestEntry (cb : List FVal) (q : Int) : Nat :=
  ((bestIndex (fun v => if v.isFinite then some (fixed v 0 - q).natAbs else none) 0 cb).map (·.2)).getD 0

/-- The code of R79's third row: toward zero, or the entry nearest zero when none qualifies. -/
def towardZeroEntry (cb : List FVal) (neg : Bool) (q : Int) : Nat :=
  match bestIndex (fun v => if v.isFinite && (v.isZero || v.negative == neg) && decide ((fixed v 0).natAbs ≤ q.natAbs)
      then some (q.natAbs - (fixed v 0).natAbs) else none) 0 cb with
  | some r => r.2
  | none => nearestEntry cb 0

/-- A value rounded to an integer with ties to even, in units of 2^−400. -/
def roundFixed (q : Int) : Int := signedMag (decide (q < 0)) (roundAt .rne false q.natAbs (-400) 0).1
def truncFixed (q : Int) : Int := signedMag (decide (q < 0)) (q.natAbs / 2 ^ 400)
def clampInt (lo hi v : Int) : Int := if v < lo then lo else if hi < v then hi else v

/-- Pack codes of `width` bits into a word, code 0 lowest. -/
def packCodes (width : Nat) : List Nat → Nat
  | [] => 0
  | c :: cs => c % 2 ^ width + 2 ^ width * packCodes width cs

/-- What quantisation makes of a block: its SCALE, its codes and its flags. -/
structure Quantised where
  scale : BitVec 8
  codes : List Nat
  flags : BitVec 5
  deriving DecidableEq, Repr

/-- A decoded code has the value of its input. -/
def sameValue (x : FVal) (d : FRes) : Bool := x.isFinite && (f32 d.1).isFinite && fixed x 0 == fixed (f32 d.1) 0

/-- Quantise a block of F32 values to C4 codes under a codebook (R78, R79). -/
def quantC4 (cb : List (BitVec 16)) (xs : List FVal) : Quantised :=
  let es := cb.map fun e => fmtBF16.decode e.toNat
  let zeros : List Nat := xs.map fun _ => 0
  if (xs.any fun x => !x.isFinite) || !(es.any FVal.isFinite) then ⟨0xFF, zeros, flagNV⟩
  else
    match largest xs, largest es with
    | (m, a), (c, b) =>
      if m = 0 ∨ c = 0 then ⟨0x7F, xs.map fun _ => nearestEntry es 0, nxIf (m != 0)⟩
      else
        let e := quantExp m a c b
        let inexact := fun (scale : BitVec 8) (codes : List Nat) =>
          (xs.zip codes).any fun p => !sameValue p.1 (decodeC4 (cb.getD p.2 0) scale)
        if e < -127 then
          let codes := xs.map fun x => towardZeroEntry es x.negative (fixed x 127)
          ⟨0, codes, flagUF ||| nxIf (inexact 0 codes)⟩
        else if 127 < e then
          ⟨0xFE, xs.map fun x => nearestEntry es (fixed x (-127)), flagOF ||| flagNX⟩
        else
          let codes := xs.map fun x => nearestEntry es (fixed x (-e))
          let scale := BitVec.ofInt 8 (e + 127)
          ⟨scale, codes, nxIf (inexact scale codes)⟩

/-- Quantise a block of F32 values to INT8 codes (R78, R79). -/
def quantI8 (xs : List FVal) : Quantised :=
  let code := fun (v : Int) => (BitVec.ofInt 8 v).toNat
  if xs.any fun x => !x.isFinite then ⟨0xFF, xs.map fun _ => 0, flagNV⟩
  else
    match largest xs with
    | (m, a) =>
      if m = 0 then ⟨0x7F, xs.map fun _ => 0, 0⟩
      else
        let e := quantExp m a 127 0
        let inexact := fun (scale : BitVec 8) (qs : List Int) =>
          (xs.zip qs).any fun p => !sameValue p.1 (decodeI8 p.2 scale)
        if e < -127 then
          let qs := xs.map fun x => truncFixed (fixed x 127)
          ⟨0, qs.map code, flagUF ||| nxIf (inexact 0 qs)⟩
        else if 127 < e then
          ⟨0xFE, xs.map fun x => code (clampInt (-127) 127 (roundFixed (fixed x (-127)))), flagOF ||| flagNX⟩
        else
          let qs := xs.map fun x => clampInt (-127) 127 (roundFixed (fixed x (-e)))
          let scale := BitVec.ofInt 8 (e + 127)
          ⟨scale, qs.map code, nxIf (inexact scale qs)⟩

/-- Codes per output word. -/
def qsendPer (lit : Word) : Nat := if qsendEfmt lit = 4 then 8 else 4

/-- The header word (R63). -/
def headerWord (efmt : Nat) (last : Bool) (blenm1 : Nat) (scale : BitVec 8) : Word :=
  BitVec.ofNat 32 (efmt * 2 ^ 17 + (if last then 2 ^ 16 else 0) + blenm1 % 256 * 256 + scale.toNat)

/-- The output words of a quantised block. -/
def codeWords (per width : Nat) : Nat → List Nat → List Word
  | 0, _ => []
  | n + 1, cs => BitVec.ofNat 32 (packCodes width (cs.take per)) :: codeWords per width n (cs.drop per)

/-- The instance of the lowest input iteration that a block holds (R179): of a block that lacks its base, that of the first word
that is present (log entry 133). -/
def lowestInput (g : Firing) (base : BitVec 12) (outs : List Out) : InstKey :=
  let k := (outs.findIdx? fun o => o != .none).getD 0
  ⟨g.tag.blk, g.tag.ctx, base + BitVec.ofNat 12 k⟩

/-- QSEND on one block (R178, R179): each word present debits P, and the header and the codes, or a NULL run, are
emitted. -/
def State.sendBlock (s : State) (f : StdForm) (g : Firing) (base : BitVec 12) (outs : List Out) : Except State State :=
  let per := qsendPer f.lit
  let w := 2 ^ qsendLw f.lit
  let present := outs.filter fun o => o != .none
  let tag : Tag := { g.tag with iter := BitVec.ofNat 12 (base.toNat / per) }
  match wordLoop (fun _ s => (s.fireWord g .p 1).map fun s => (s, .none)) s 0 present.length with
  | .error s1 => .error s1
  | .ok (s1, _) =>
    let oq := s1.fresh
    let own := Tag.soleEmitter { g.tag with iter := base }
    let emit := fun (s : State) (p : Piece) => [f.t0, f.t1].foldl (fun s t => s.emitPieceBy own g oq f.tact tag t p) s
    if outs.any Out.isNull then .ok (emit s1.freshen ⟨0, 7, List.replicate w nullWord⟩)
    else
      let xs := outs.map fun o => f32 o.word
      let q := if qsendEfmt f.lit = 4 then quantC4 (s.codebook g (qsendCb f.lit)) xs else quantI8 xs
      let s2 := s1.freshen.raiseFlags g.task (lowestInput g base outs) q.flags
      .ok (emit (emit s2 ⟨0, 6, [headerWord (qsendEfmt f.lit) true (w - 1) q.scale]⟩)
        ⟨0, BitVec.ofNat 3 (qsendEfmt f.lit), codeWords per (32 / per) w q.codes⟩)

/-- Send blocks one after another. -/
def State.sendBlocks (s : State) (f : StdForm) (g : Firing) : List (BitVec 12 × List Out) → Except State State
  | [] => .ok s
  | (b, os) :: bs =>
    match s.sendBlock f g b os with
    | .error s1 => .error s1
    | .ok s1 => s1.sendBlocks f g bs

/-- Blocks that must have leave become an outstanding operation, a word for each block and, after a flush,
one more for the control token; they ask for leave in order (R179, R376). -/
def State.askBlocks (s : State) (f : StdForm) (g : Firing) (bs : List (BitVec 12 × List Out)) : State :=
  match s.task? g.task with
  | none => s
  | some t =>
    let dom := t.domainOf g.site
    match s.beginOp (.qsend f) g (bs.map fun b => ⟨.waiting, b.1.toNat, b.2, [], 0, [], 0, false, 0⟩) with
    | (op, s1) => (List.range bs.length).foldl
        (fun s j => s.askLeave t.hoop dom ⟨g.task, op, j, t.tower⟩ (s.leaveStep t.hoop dom 4)) s1

/-- A block of an instruction, context and path still waits for leave: a control token follows it (R163). -/
def Task.blockWaits (t : Task) (g : Firing) : Bool :=
  t.ops.any fun o => !o.finished && o.firing.site == g.site && o.firing.tag.blk == g.tag.blk && o.firing.tag.inst == g.tag.inst &&
    o.firing.tag.ctx == g.tag.ctx && o.firing.tag.path == g.tag.path && o.firing.tag.pdep == g.tag.pdep && (match o.instr with
      | .qsend _ => true
      | _ => false)

/-- QSEND (R178, R179). A window of 64 words or more asks for leave, whatever words it holds (log entry 134). -/
def execQsend (f : StdForm) (s : State) : Result :=
  withFiring s fun g s =>
    let size := qsendPer f.lit * 2 ^ qsendLw f.lit
    match s.gathered g size with
    | .error s1 => s1
    | .ok (s1, ws) =>
      let bs := ws.map fun w => (w.1, windowOuts w.2 size)
      if size < 64 || bs.isEmpty then
        match s1.sendBlocks f g bs with
        | .error s2 => s2
        | .ok s2 => s2.passControl g f
      else s1.askBlocks f g bs

/-- A block that has been given leave is sent, its leave is released, and after the last block of a flush
the control token follows. -/
def State.blockGranted (s : State) (f : StdForm) (id : Nat) (t : Task) (o : OpRec) (j step : Nat) : State :=
  let g := o.firing
  let dom := t.domainOf g.site
  match s.sendBlock f g (BitVec.ofNat 12 (o.at j).pa) (o.at j).outs with
  | .error s1 => s1.releaseLeave t.hoop dom step
  | .ok s1 =>
    (s1.releaseLeave t.hoop dom step).finishWord id o.id j []

end Sys2Proof.Machine
end

