-- ==== Sys2Proof/Machine/Claim.lean ====
section
/-!
DEFINITION. Which complete set of a site fires next (R7, R44, R45, R139, R188, R216).
-/

namespace Sys2Proof.Machine

/-- The number of leading words of a set, from word `j` on, that satisfy `p`. -/
def leading (p : Nat → Bool) (j : Nat) : Nat → Nat
  | 0 => 0
  | n + 1 => if p j then leading p (j + 1) n + 1 else 0

/-- A sink of a barrier or phase whose arrival bit is set waits (R285). -/
def Task.sinkWaits (t : Task) (i : Instr) (phase : Bool) (ident : Nat) (g : Firing) : Bool :=
  match controlToken g.a, t.barrier? phase ident with
  | some c, some b => (phase || bits (c.words.headD 0) 15 8 == ident) && performs i g 0 && b.arrived.contains (g.tag.blk, g.tag.inst)
  | _, _ => false

/-- The leading words of a set that need not wait for something beyond their operands (R7 Wait): READ for the instance
before its own (R196), LOOPI for the end of a live issue (R199), BWAIT for a count (R287), FENCE for the operations before it
(R288), a sink for its bit (R285), a matrix instruction that reads memory for the instance before its own (R230, R392: it takes
its place in issue order when it has waited), and a control token of QSEND for the blocks before it (R163). -/
def State.readyWords (s : State) (t : Task) (i : Instr) (g : Firing) : Nat :=
  match i with
  | .read f => leading (fun j => !s.readWaits t f.fw g j) 0 g.n
  | .loopi f => leading (fun j => !t.loopiWaits f g j) 0 g.n
  | .bwait f => match t.barrier? (bwaitPhase f.lit) (barrId f.lit) with
    | some b => leading (fun j => bwaitReady f (g.part j 1) b.count) 0 g.n
    | none => g.n
  | .fence f => if s.fencePending t g.cut (fenceScope f.lit) then leading (fun j => !performs (.fence f) g j) 0 g.n else g.n
  | .eos f => if eosSink f.lit && t.sinkWaits i true 0 g then 0 else g.n
  | .barr f => if barrSink f.lit && t.sinkWaits i false (barrId f.lit) g then 0 else g.n
  | .oploadDense _ | .oploadCodebook _ | .accWrite _ => leading (fun j => !performs i g j || s.orderReady t (g.instAt j) 0 true) 0 g.n
  | .qsend _ => if (controlToken g.a).isSome && t.blockWaits g then 0 else g.n
  | _ => g.n

/-- The leading words of a set that claim issue: admitted, and waiting for nothing; a gathered window claims as a whole, and
a set that has begun to fire goes on (R139, R188). -/
def State.claimWords (s : State) (t : Task) (i : Instr) (g : Firing) : Nat :=
  if !g.fired.isEmpty then g.n
  else
    let m := Nat.min (s.admittedPrefix t g 0 g.n) (s.readyWords t i g)
    if !g.win.isEmpty && decide (m < g.n) then 0 else m

/-- A set claims issue: its instance is there, and some of its words may fire. -/
def State.claims (s : State) (t : Task) (g : Firing) : Bool :=
  match t.instr? g.tag.blk g.tag.inst with
  | some i => (t.inst? (g.instAt 0)).isSome && s.claimWords t i g != 0
  | none => false

/-- Two arrivals at one accumulation of COMB (R215). -/
def sameArrival (g h : Firing) : Bool :=
  g.tag.blk == h.tag.blk && g.tag.inst == h.tag.inst && g.tag.ctx == h.tag.ctx && g.tag.path == h.tag.path && g.tag.pdep == h.tag.pdep &&
    (decide ((h.tag.iter - g.tag.iter).toNat < g.n) || decide ((g.tag.iter - h.tag.iter).toNat < h.n))

/-- Another set of the site claims issue before the one at place `k`: one that has begun to fire (R139), an earlier arrival
at the same accumulation (R216), and of the others the one that became complete earlier, or, when the output queue has one
free entry, the one that is older in its window, and of equals the earlier (R44, R45). -/
def State.heldByOther (s : State) (t : Task) (k : Nat) (g : Firing) (lastEntry : Bool) : Bool :=
  g.fired.isEmpty && (setsWithPlaces g.task g.site 0 s.agenda).any fun x =>
    !x.2.fired.isEmpty || (s.atComb g && sameArrival g x.2 && decide (x.1 < k)) ||
    ((if lastEntry then decide (t.age x.2 < t.age g) || (t.age x.2 == t.age g && decide (x.1 < k)) else decide (x.1 < k)) &&
      s.claims t x.2)

/-- What becomes of a complete set that a step takes up. -/
inductive Claim where
  /-- Its task or its instance is gone: it is dropped (R140, R192). -/
  | drop
  /-- It does not claim issue now (R44, R45, R188, R344). -/
  | wait
  /-- Its first `m` words fire, under the given instruction. -/
  | fire (m : Nat) (i : Instr)
  /-- No placed word decodes for it. -/
  | refuse (w : Word)
  deriving DecidableEq, Repr

/-- The claim of the set at place `k` on its site's issue slot. The sets of quadrants that a violation froze stay for
inspection (R343). -/
def State.claim (s : State) (k : Nat) (g : Firing) : Claim :=
  match s.task? g.task with
  | none => .drop
  | some t =>
    if t.frozen != .none then .wait
    else match t.phase with
    | .running =>
      match t.placed? g.tag.blk g.tag.inst with
      | none => .refuse 0
      | some p =>
        match p.instr? with
        | none => .refuse p.word
        | some i =>
          if (t.inst? (g.instAt 0)).isNone then .drop
          else
            let m := s.claimWords t i g
            let q := s.outputQueue g.task g.site
            if m = 0 then .wait
            else if g.fired.isEmpty && decide (4 ≤ q) then .wait
            else if s.heldByOther t k g (q = 3) then .wait
            else .fire m i
    | .halting | .saved => .wait
    | _ => .drop

/-- The set that fires is the first `m` words of `g`; the rest stays in its place (log entry 127). -/
def State.fireFirst (s : State) (k : Nat) (g : Firing) (m : Nat) : State :=
  if m < g.n then
    { s with agenda := s.agenda.take k ++ .firing (g.part m (g.n - m)) :: s.agenda.drop k
             cur := some (.firing (g.part 0 m), k) }
  else s

end Sys2Proof.Machine
end

