-- ==== Sys2Proof/Machine/Compute.lean ====
section
/-!
DEFINITION. The integer instructions (R141 to R150).
-/

namespace Sys2Proof.Machine

/-! ### The operations -/

/-- Clamp(v, lo, hi) of R142. -/
def clamp (v lo hi : Int) : Int := if v < lo then lo else if hi < v then hi else v

def minI32 : Int := -2147483648
def maxI32 : Int := 2147483647

def addWords (a b : Word) : Word := Word.wrap (a.toNat + b.toNat)
def subWords (a b : Word) : Word := Word.wrap ((a.toNat : Int) - b.toNat)
def addsWords (a b : Word) : Word := Word.wrap (clamp (a.toInt + b.toInt) minI32 maxI32)
def subsWords (a b : Word) : Word := Word.wrap (clamp (a.toInt - b.toInt) minI32 maxI32)
def addusWords (a b : Word) : Word := Word.wrap (clamp ((a.toNat : Int) + b.toNat) 0 4294967295)
def subusWords (a b : Word) : Word := Word.wrap (clamp ((a.toNat : Int) - b.toNat) 0 4294967295)
def mulWords (a b : Word) : Word := Word.wrap ((a.toNat : Int) * b.toNat)
def mulhWords (a b : Word) : Word := Word.wrap (a.toInt * b.toInt / 2 ^ 32)
def mulhuWords (a b : Word) : Word := Word.wrap ((a.toNat : Int) * b.toNat / 2 ^ 32)
def muladdWords (a b c : Word) : Word := Word.wrap ((a.toNat : Int) * b.toNat + c.toNat)

/-- Division truncating toward zero, with the fixed results of R143. -/
def divWords (a b : Word) : Word :=
  if b = 0 then 0xFFFFFFFF
  else if a.toInt = minI32 ∧ b.toInt = -1 then 0x80000000
  else Word.wrap (Int.tdiv a.toInt b.toInt)
def divuWords (a b : Word) : Word := if b = 0 then 0xFFFFFFFF else Word.wrap ((a.toNat / b.toNat : Nat) : Int)
def remWords (a b : Word) : Word :=
  if b = 0 then a
  else if a.toInt = minI32 ∧ b.toInt = -1 then 0
  else Word.wrap (a.toInt - b.toInt * Int.tdiv a.toInt b.toInt)
def remuWords (a b : Word) : Word := if b = 0 then a else Word.wrap ((a.toNat % b.toNat : Nat) : Int)

/-- The shift amount b[4:0] (R144). -/
def shiftAmount (b : Word) : Nat := b.toNat % 32

def shlWords (a b : Word) : Word := Word.wrap ((a.toNat : Int) * 2 ^ shiftAmount b)
def shrWords (a b : Word) : Word := Word.wrap ((a.toNat / 2 ^ shiftAmount b : Nat) : Int)
def sarWords (a b : Word) : Word := Word.wrap (a.toInt / 2 ^ shiftAmount b)
def rolWords (a b : Word) : Word :=
  Word.wrap ((a.toNat : Int) * 2 ^ shiftAmount b) ||| Word.wrap ((a.toNat / 2 ^ (32 - shiftAmount b) : Nat) : Int)

/-- The number of leading zero bits among the top `n` bits of a word (R145). -/
def leadingZeros (a : Word) : Nat → Nat
  | 0 => 0
  | n + 1 => if a.getLsbD n then 0 else 1 + leadingZeros a n

/-- The number of trailing zero bits among the `n` bits from bit `32 - n` up. -/
def trailingZeros (a : Word) : Nat → Nat
  | 0 => 0
  | n + 1 => if a.getLsbD (31 - n) then 0 else 1 + trailingZeros a n

/-- The number of one bits among the low `n`. -/
def popCount (a : Word) : Nat → Nat
  | 0 => 0
  | n + 1 => (if a.getLsbD n then 1 else 0) + popCount a n

def clzWord (a : Word) : Word := BitVec.ofNat 32 (leadingZeros a 32)
def ctzWord (a : Word) : Word := BitVec.ofNat 32 (trailingZeros a 32)
def popcWord (a : Word) : Word := BitVec.ofNat 32 (popCount a 32)
def brevWord (a : Word) : Word := a.reverse

def minWords (a b : Word) : Word := if a.toInt ≤ b.toInt then a else b
def maxWords (a b : Word) : Word := if b.toInt ≤ a.toInt then a else b
def minuWords (a b : Word) : Word := if a.toNat ≤ b.toNat then a else b
def maxuWords (a b : Word) : Word := if b.toNat ≤ a.toNat then a else b
def negWord (a : Word) : Word := Word.wrap (0 - (a.toNat : Int))
def absWord (a : Word) : Word := if a.toInt < 0 then negWord a else a

/-- EXTB and EXTH (R148): the byte or half that b selects, sign-extended when b[2] is set. -/
def extbWords (a b : Word) : Word :=
  let f : BitVec 8 := a.extractLsb' (8 * (b.toNat % 4)) 8
  if b.getLsbD 2 then f.signExtend 32 else f.zeroExtend 32
def exthWords (a b : Word) : Word :=
  let f : BitVec 16 := a.extractLsb' (16 * (b.toNat % 2)) 16
  if b.getLsbD 2 then f.signExtend 32 else f.zeroExtend 32

/-- The control word of BFX and BFI (R149). -/
def bfPos (b : Word) : Nat := b.toNat % 32
def bfWidth (b : Word) : Nat := b.toNat / 32 % 32 + 1

def bfxWords (a b : Word) : Word :=
  let w := bfWidth b
  let t : Int := if b.getLsbD 10 then a.toInt / 2 ^ bfPos b else (a.toNat : Int) / 2 ^ bfPos b
  let f := t % 2 ^ w
  if b.getLsbD 10 ∧ w < 32 ∧ 2 ^ (w - 1) ≤ f then Word.wrap (f - 2 ^ w) else Word.wrap f

def bfiWords (a b c : Word) : Word :=
  let m := Word.wrap (((2 : Int) ^ bfWidth b - 1) * 2 ^ bfPos b)
  (a &&& ~~~m) ||| (Word.wrap ((c.toNat : Int) * 2 ^ bfPos b) &&& m)

/-! ### The instructions -/

def execAdd (f : StdForm) (s : State) : Result := integerOp (.add f) (fun a b _ => addWords a b) s
def execSub (f : StdForm) (s : State) : Result := integerOp (.sub f) (fun a b _ => subWords a b) s
def execAdds (f : StdForm) (s : State) : Result := integerOp (.adds f) (fun a b _ => addsWords a b) s
def execSubs (f : StdForm) (s : State) : Result := integerOp (.subs f) (fun a b _ => subsWords a b) s
def execAddus (f : StdForm) (s : State) : Result := integerOp (.addus f) (fun a b _ => addusWords a b) s
def execSubus (f : StdForm) (s : State) : Result := integerOp (.subus f) (fun a b _ => subusWords a b) s
def execMul (f : StdForm) (s : State) : Result := integerOp (.mul f) (fun a b _ => mulWords a b) s
def execMulh (f : StdForm) (s : State) : Result := integerOp (.mulh f) (fun a b _ => mulhWords a b) s
def execMulhu (f : StdForm) (s : State) : Result := integerOp (.mulhu f) (fun a b _ => mulhuWords a b) s
def execMuladd (f : StdForm) (s : State) : Result := integerOp (.muladd f) muladdWords s
def execDiv (f : StdForm) (s : State) : Result := integerOp (.div f) (fun a b _ => divWords a b) s
def execDivu (f : StdForm) (s : State) : Result := integerOp (.divu f) (fun a b _ => divuWords a b) s
def execRem (f : StdForm) (s : State) : Result := integerOp (.rem f) (fun a b _ => remWords a b) s
def execRemu (f : StdForm) (s : State) : Result := integerOp (.remu f) (fun a b _ => remuWords a b) s
def execAnd (f : StdForm) (s : State) : Result := integerOp (.and f) (fun a b _ => a &&& b) s
def execOr (f : StdForm) (s : State) : Result := integerOp (.or f) (fun a b _ => a ||| b) s
def execXor (f : StdForm) (s : State) : Result := integerOp (.xor f) (fun a b _ => a ^^^ b) s
def execAndn (f : StdForm) (s : State) : Result := integerOp (.andn f) (fun a b _ => a &&& ~~~b) s
def execShl (f : StdForm) (s : State) : Result := integerOp (.shl f) (fun a b _ => shlWords a b) s
def execShr (f : StdForm) (s : State) : Result := integerOp (.shr f) (fun a b _ => shrWords a b) s
def execSar (f : StdForm) (s : State) : Result := integerOp (.sar f) (fun a b _ => sarWords a b) s
def execRol (f : StdForm) (s : State) : Result := integerOp (.rol f) (fun a b _ => rolWords a b) s
def execClz (f : StdForm) (s : State) : Result := integerOp (.clz f) (fun a _ _ => clzWord a) s
def execCtz (f : StdForm) (s : State) : Result := integerOp (.ctz f) (fun a _ _ => ctzWord a) s
def execPopc (f : StdForm) (s : State) : Result := integerOp (.popc f) (fun a _ _ => popcWord a) s
def execBrev (f : StdForm) (s : State) : Result := integerOp (.brev f) (fun a _ _ => brevWord a) s
def execMin (f : StdForm) (s : State) : Result := integerOp (.min f) (fun a b _ => minWords a b) s
def execMax (f : StdForm) (s : State) : Result := integerOp (.max f) (fun a b _ => maxWords a b) s
def execMinu (f : StdForm) (s : State) : Result := integerOp (.minu f) (fun a b _ => minuWords a b) s
def execMaxu (f : StdForm) (s : State) : Result := integerOp (.maxu f) (fun a b _ => maxuWords a b) s
def execAbs (f : StdForm) (s : State) : Result := integerOp (.abs f) (fun a _ _ => absWord a) s
def execNeg (f : StdForm) (s : State) : Result := integerOp (.neg f) (fun a _ _ => negWord a) s
def execExtb (f : StdForm) (s : State) : Result := integerOp (.extb f) (fun a b _ => extbWords a b) s
def execExth (f : StdForm) (s : State) : Result := integerOp (.exth f) (fun a b _ => exthWords a b) s
def execBfx (f : StdForm) (s : State) : Result := integerOp (.bfx f) (fun a b _ => bfxWords a b) s
def execBfi (f : StdForm) (s : State) : Result := integerOp (.bfi f) bfiWords s
def execTeq (f : StdForm) (s : State) : Result := integerOp (.teq f) (fun a b _ => Word.ofBool (a == b)) s
def execTne (f : StdForm) (s : State) : Result := integerOp (.tne f) (fun a b _ => Word.ofBool (a != b)) s
def execTlt (f : StdForm) (s : State) : Result := integerOp (.tlt f) (fun a b _ => Word.ofBool (decide (a.toInt < b.toInt))) s
def execTle (f : StdForm) (s : State) : Result := integerOp (.tle f) (fun a b _ => Word.ofBool (decide (a.toInt ≤ b.toInt))) s
def execTltu (f : StdForm) (s : State) : Result := integerOp (.tltu f) (fun a b _ => Word.ofBool (decide (a.toNat < b.toNat))) s
def execTleu (f : StdForm) (s : State) : Result := integerOp (.tleu f) (fun a b _ => Word.ofBool (decide (a.toNat ≤ b.toNat))) s

/-- The common format of SEL's A and B words (R147): a literal takes the format of the other token. A NULL
token suits any format. -/
def selFmt (f : StdForm) (g : Firing) : BitVec 3 :=
  match (if f.la then none else g.a), (if f.lb then none else g.b) with
  | some t, some u => if t.tag.fmt = 7 then u.tag.fmt else t.tag.fmt
  | some t, none => t.tag.fmt
  | none, some u => u.tag.fmt
  | none, none => 0

/-- SEL's A and B data tokens have different formats. -/
def selMixed (f : StdForm) (g : Firing) : Option Token :=
  match (if f.la then none else g.a), (if f.lb then none else g.b) with
  | some t, some u => if t.tag.fmt ≠ 7 ∧ u.tag.fmt ≠ 7 ∧ t.tag.fmt ≠ u.tag.fmt then some t else none
  | _, _ => none

/-- SEL (R147). -/
def execSel (f : StdForm) (s : State) : Result :=
  withFiring s fun g s =>
    match selMixed f g with
    | some t => s.raiseFmt g.task g.src t 0x04 (t.words.headD 0)
    | none => compute (.sel f) (selFmt f g) (fun a b c => (if c = 0 then b else a, 0)) g s

end Sys2Proof.Machine
end

