-- ==== Sys2Proof/Machine/Stream.lean ====
section
/-!
DEFINITION. Streams (R239 to R249): their descriptors, their element accesses, SCLOSE and SBAR.
-/

namespace Sys2Proof.Machine

/-! ### Descriptors (R240 to R242, R245) -/

/-- The remote hoop that word 6 names; `none` outside where it has a nonzero reserved bit. Without RMT the HOOP field has
no meaning, and any value of it is taken (log entry 125). -/
def remoteOf (w : Word) : Option (Option Nat) :=
  if bitsZero w 30 6 then some (if w.getLsbD 31 then some (bits w 5 0) else none) else none

/-- A stream's pattern, as its descriptor gives it. -/
structure Pattern where
  sid : Nat
  runMax : Nat
  count : Nat
  dims : List (Nat × Word)
  indirect : Bool
  idxoff : Word
  shift : Nat
  remote : Option Nat
  deriving DecidableEq, Repr

/-- The affine descriptor (R240, R242), or `none` for a bad one. -/
def affinePattern (d : List Word) : Option Pattern :=
  let w := fun k => d.getD k 0
  let n := bits (w 0) 6 5 + 1
  let c0 := bits (w 1) 15 0 + 1
  let c1 := bits (w 1) 31 16 + 1
  let c2 := bits (w 2) 15 0 + 1
  let unused := (decide (2 ≤ n) || (c1 == 1 && w 4 == 0)) && (decide (3 ≤ n) || (c2 == 1 && w 5 == 0))
  let strides := bits (w 3) 1 0 == 0 && bits (w 4) 1 0 == 0 && bits (w 5) 1 0 == 0
  let dims := [(c0, w 3), (c1, w 4), (c2, w 5)].take n
  if bitsZero (w 0) 31 13 && bitsZero (w 0) 7 7 && decide (n ≤ 3) && bitsZero (w 2) 31 16 && unused && strides && w 7 == 0 then
    (remoteOf (w 6)).map fun r =>
      ⟨bits (w 0) 4 0, bits (w 0) 12 8 + 1, (dims.map (·.1)).foldl (· * ·) 1, dims, false, 0, 0, r⟩
  else none

/-- The indirect descriptor (R241, R242), or `none` for a bad one. -/
def indirectPattern (d : List Word) : Option Pattern :=
  let w := fun k => d.getD k 0
  if bitsZero (w 0) 31 15 && bitsZero (w 0) 7 5 && bitsZero (w 1) 31 24 && bits (w 2) 1 0 == 0 &&
      w 3 == 0 && w 4 == 0 && w 5 == 0 && w 7 == 0 then
    (remoteOf (w 6)).map fun r =>
      ⟨bits (w 0) 4 0, bits (w 0) 12 8 + 1, bits (w 1) 23 0 + 1, [], true, w 2, bits (w 0) 14 13, r⟩
  else none

/-- The offset of an affine element (R240). -/
def affineOffset (base : Word) : List (Nat × Word) → Nat → Word
  | [], _ => base
  | (c, stride) :: ds, e => affineOffset (base + BitVec.ofNat 32 (e % c) * stride) ds (e / c)

/-- An offset joins a set of offsets in falling order. -/
def joinOffset (x : Nat) : List Nat → List Nat
  | [] => [x]
  | y :: ys => if y < x then x :: y :: ys else if y = x then y :: ys else y :: joinOffset x ys

/-- How many lines of the memory at `seg` a set of offsets in falling order covers. -/
def linesOf (seg : Nat) : List Nat → Nat
  | [] => 0
  | [_] => 1
  | x :: y :: ys => linesOf seg (y :: ys) + if (seg + x) / 64 = (seg + y) / 64 then 0 else 1

/-- The offsets a dimension adds to a set, as far as fewer than 256 lines of the memory at `seg` are covered. -/
def coverDim (seg stride : Nat) (offs acc : List Nat) (e : Nat) : Nat → List Nat
  | 0 => acc
  | n + 1 =>
    if 256 ≤ linesOf seg acc then acc
    else coverDim seg stride offs (offs.foldr (fun o acc => joinOffset ((o + e * stride) % 2 ^ 32) acc) acc) (e + 1) n

/-- The offsets of a pattern, as far as fewer than 256 lines are covered. A dimension of stride zero adds
none, and one of 4,096 steps or more covers 256 lines by itself. -/
def coverDims (seg : Nat) (base : Word) (dims : List (Nat × Word)) : List Nat :=
  dims.foldl (fun offs d => if d.2 = 0 then offs else coverDim seg d.2.toNat offs offs 1 (Nat.min d.1 4096 - 1)) [base.toNat]

/-- The lines of an indirect pattern's elements, as its index words stand, as far as fewer than 256 are covered. -/
def coverIndex (seg : Nat) (base : Word) (shift : Nat) (index : Nat → Word) (lines : List Nat) (e : Nat) : Nat → List Nat
  | 0 => lines
  | n + 1 =>
    if 256 ≤ lines.length then lines
    else
      let line := (seg + (base + index e * BitVec.ofNat 32 (2 ^ (shift + 2))).toNat) / 64
      coverIndex seg base shift index (if lines.contains line then lines else line :: lines) (e + 1) n

/-- Whether a pattern covers 256 lines or more (R244), in a segment whose memory begins at `seg`. -/
def Pattern.large (p : Pattern) (seg : Nat) (base : Word) (index : Nat → Word) : Bool :=
  if p.indirect then decide (256 ≤ p.count) && decide (256 ≤ (coverIndex seg base p.shift index [] 0 p.count).length)
  else decide (256 ≤ linesOf seg (coverDims seg base p.dims))

/-! ### Opening (R239, R243, R245) -/

/-- The direction, format and kind of an opener. -/
def openerOf : Instr → Option (Bool × BitVec 3 × Bool)
  | .sopenRead _ fmt => some (false, fmt, false)
  | .sopenWrite _ fmt => some (true, fmt, false)
  | .sindRead _ fmt => some (false, fmt, true)
  | .sindWrite _ fmt => some (true, fmt, true)
  | _ => none

/-- Streams that are open. -/
def Task.openStreams (t : Task) : List Stream := t.streams.filter fun x => !x.closed

/-- A read opener or a write opener (R239 to R243). -/
def execSopenRead (f : SForm) (fmt : BitVec 3) (s : State) : Result := withFiring s (selvageFiring (.sopenRead f fmt))
def execSopenWrite (f : SForm) (fmt : BitVec 3) (s : State) : Result := withFiring s (selvageFiring (.sopenWrite f fmt))
def execSindRead (f : SForm) (fmt : BitVec 3) (s : State) : Result := withFiring s (selvageFiring (.sindRead f fmt))
def execSindWrite (f : SForm) (fmt : BitVec 3) (s : State) : Result := withFiring s (selvageFiring (.sindWrite f fmt))

/-- The address that an offset of a segment reaches, without a trace: what the checks and the page tables give. -/
def State.peekPa (s : State) (t : Task) (tile : Option Nat) (types : List Nat) (a : Access) : Option Nat :=
  match s.checkAccess t tile types a with
  | .ok pa _ => some pa
  | .fault _ _ => none
  | .walk va => (s.walk t.tcb.asid va).map fun e => leafPa e.1 (e.2 == 2) va

/-- An index word of an indirect pattern as it stands (R241). -/
def State.peekIndex (s : State) (t : Task) (i : Instr) (tile : Nat) (idxoff : Word) (e : Nat) : Word :=
  match s.peekPa t (some tile) (segTypes i) ⟨i.fields.seg, idxoff + BitVec.ofNat 32 (4 * e), 4, false, true, 0⟩ with
  | some pa => BitVec.ofNat 32 (natOfBytes (s.readVisible t none pa 4))
  | none => 0

/-- The stream opens: its element accesses begin, after leave where its pattern is large (R244). -/
def State.openStream (s : State) (id : Nat) (t : Task) (o : OpRec) (j : Nat) (p : Pattern) (tile : Nat)
    (w : Bool) (fmt : BitVec 3) : State :=
  let base := (operand o.instr o.firing 0 j).word
  let dom := tileQuad tile
  let ask := p.large (t.segment o.instr.fields.seg).base base (s.peekIndex t o.instr tile p.idxoff)
  let x : Stream := ⟨s.fresh, p.sid, tile, o.firing.part j 1, o.instr, w, fmt, base, p.runMax, p.count, p.dims, p.indirect,
    p.idxoff, p.shift, p.remote, 0, 0, [], [], [], 0, ask, (o.id, j), false, false⟩
  let s1 := s.freshen.withTask id fun t => { t with streams := t.streams ++ [x] }
  let s2 := match p.remote with
    | some h =>
      let c : Circuit := ⟨t.hoop, h, id, s.fresh⟩
      { s1 with circuits := s1.circuits ++ [c] }
    | none => s1
  let s3 := if ask then s2.askLeave t.hoop dom ⟨id, o.id, j, t.tower⟩ (s2.leaveStep t.hoop dom 4) else s2
  (s3.finishWord id o.id j []).push (.streamElementAccess id s.fresh)

/-- The descriptor of word `j` of an opener, read under its LSID (R240). -/
def State.descriptor (s : State) (t : Task) (o : OpRec) (j : Nat) : List Word :=
  let bs := s.readVisible t (some (o.firing.instAt j, o.instr.fields.lsid)) (o.at j).pa 32
  (List.range 8).map fun k => BitVec.ofNat 32 (natOfBytes ((bs.drop (4 * k)).take 4))

/-- What an opener finds once its descriptor is read. -/
inductive Opening where
  | bad
  | busy
  | circuit (h : Nat)
  | ready (p : Pattern)
  deriving DecidableEq, Repr

/-- A pattern from a descriptor's words. -/
def patternOf (indirect : Bool) (d : List Word) : Option Pattern := if indirect then indirectPattern d else affinePattern d

/-- The SIDs and the tiles of the engines that a task's streams have: those of open streams, and those of openers that
wait for a circuit (R239, R245). -/
def Task.enginesTaken (t : Task) : List (Nat × Nat) :=
  (t.openStreams.map fun x => (x.sid, x.tile)) ++ t.ops.flatMap fun o => match openerOf o.instr, tileOf o.firing.site with
    | some _, some tile => (o.words.filter fun w => w.stage == .queued && !w.dropped).map fun w => (bits (w.data.headD 0) 4 0, tile)
    | _, _ => []

/-- Judge an opener (R239, R242, R245). -/
def State.opening (t : Task) (o : OpRec) (j tile : Nat) (indirect : Bool) (d : List Word) : Opening :=
  match patternOf indirect d with
  | none => .bad
  | some p =>
    if bits (operand o.instr o.firing 0 j).word 1 0 != 0 then .bad
    else if p.remote.isSome && (t.segment o.instr.fields.seg).typ != typScr then .bad
    else if t.enginesTaken.any (fun x => x.1 == p.sid) || decide (8 ≤ (t.enginesTaken.filter fun x => x.2 == tile).length) then
      .busy
    else match p.remote with
      | some h => .circuit h
      | none => .ready p

/-- STREAM_ENGINE_ACQUIRE (R239): the opener's descriptor read performs once, and the opener takes its SID and an
engine of its tile when both are free. -/
def execStreamEngineAcquire (task op j : Nat) (s : State) : Result :=
  .next (s.onWord task op j .ready fun t o =>
    match openerOf o.instr, tileOf o.firing.site with
    | some (w, fmt, ind), some tile =>
      let a := accessOf o.instr o.firing j
      let key := if (t.segment a.seg).typ = typScr then 0 else (t.segment a.seg).key
      let read := (o.at j).data.isEmpty
      let d := if read then s.descriptor t o j else (o.at j).data
      if read && !s.lineGood (o.at j).pa key then s.raiseAccess task o.firing.src o.firing.tag a F_CHECK (t.shownVa a)
      else match State.opening t o j tile ind d with
        | .bad =>
          let sid := BitVec.ofNat 5 (bits (d.headD 0) 4 0)
          s.raiseAccess task o.firing.src o.firing.tag { a with ident := sid } F_SEG (t.shownVa a)
        | .busy => (s.withOpWord task op j fun w => { w with data := d }).block
        | .circuit _ => (s.withOpWord task op j fun w => { w with stage := .queued, data := d }).push (.circuitSetup task op j)
        | .ready p => if t.halted then s.block else s.openStream task t o j p tile w fmt
    | _, _ => s)

/-- CIRCUIT_SETUP (R245): both ends must have a free circuit, and the remote hoop must hold a task of the
opener's address space. -/
def execCircuitSetup (task op j : Nat) (s : State) : Result :=
  .next (s.onWord task op j .queued fun t o =>
    match openerOf o.instr, tileOf o.firing.site with
    | some (w, fmt, ind), some tile =>
      match patternOf ind (o.at j).data with
      | some p =>
        let h := p.remote.getD 0
        let a := { accessOf o.instr o.firing j with ident := BitVec.ofNat 5 p.sid }
        if !(s.tasks.any fun u => u.hoop == h && u.tcb.asid == t.tcb.asid && u.phase != .saved) then
          s.raiseAccess task o.firing.src o.firing.tag a F_PROT (t.shownVa a)
        else if t.halted || decide (16 ≤ (s.circuits.filter fun c => c.source == t.hoop).length) ||
            decide (16 ≤ (s.circuits.filter fun c => c.dest == h).length) then s.block
        else s.openStream task t o j p tile w fmt
      | none => s
    | _, _ => s)

/-! ### Closing (R243, R246, R248) -/

/-- A write stream's lines join the committed set once it has closed and its opening instance has committed. -/
def Task.joinStreams (t : Task) : Task :=
  let ready := (t.streams.filter fun x => x.closed && x.instDone).map (·.uid)
  { t with
    streams := t.streams.filter fun x => !ready.contains x.uid
    staged := (t.staged.filter fun w => match w.owner with
        | .stream k => !ready.contains k
        | _ => true) ++
      (t.staged.filter fun w => match w.owner with
        | .stream k => ready.contains k
        | _ => false).map fun w => { w with owner := .committed } }

/-- A stream closes: its engine, its circuit and its leave are free. A write stream's lines stay staged
until its opening instance has committed. -/
def State.closeStream (s : State) (id : Nat) (x : Stream) : State :=
  match s.task? id with
  | none => s
  | some t =>
    let s1 := if x.leave = 0 then s else s.releaseLeave t.hoop (tileQuad x.tile) x.leave
    let s2 := { s1 with circuits := s1.circuits.filter fun c => !(c.task == id && c.uid == x.uid) }
    let s3 := s2.withTask id fun t =>
      let gone := x.instDone || (t.inst? (x.firing.instAt 0)).isNone
      let mine := fun (y : Stream) => y.uid == x.uid
      let shut := fun (y : Stream) => { y with closed := true, instDone := gone, buffer := [], leave := 0 }
      let rest := if x.write then modifyWhere mine shut t.streams else t.streams.filter fun y => !mine y
      Task.joinStreams { t with streams := rest }
    s3.settleSbars id

/-- A write stream emits a count to its t0 at its opening iteration. -/
def State.emitCount (s : State) (x : Stream) (n : Nat) : State :=
  s.emitOuts x.firing .keep x.firing.tag [x.instr.fields.t0] [.data 0 (BitVec.ofNat 32 n)]

/-- SCLOSE closes a named stream (R246). Every access it has begun has performed. -/
def State.sclose (s : State) (id sid : Nat) : State :=
  match (s.task? id).bind fun t => t.openStreams.find? fun x => x.sid == sid with
  | none => s
  | some x => if x.write then (s.closeStream id x).emitCount x x.done else s.closeStream id x

/-- SCLOSE (R246). -/
def execSclose (f : SForm) (s : State) : Result :=
  withFiring s fun g s =>
    emitResult (.sclose f) g (wordLoop (fun j s =>
      match s.fireWord g .t 1 with
      | .error s1 => .error s1
      | .ok s1 =>
        match operand (.sclose f) g 0 j with
        | .data fmt w =>
          if predicateFalse (.sclose f) g j then .ok (s1, .null)
          else .ok (s1.sclose g.task (bits f.lit 4 0), .data fmt w)
        | o => .ok (s1, o)) s 0 g.n)

/-! ### SBAR (R247) -/

/-- The streams of a mask that have staged elements not yet in the committed set. -/
def Task.unperformed (t : Task) (mask : Word) : List Word :=
  ((t.streams.filter fun x => mask.getLsbD x.sid && t.staged.any fun w => w.owner == .stream x.uid).map fun x =>
    BitVec.ofNat 32 x.uid)

/-- A stream is held back by an SBAR that waits. -/
def Task.held (t : Task) (sid : Nat) : Bool :=
  t.ops.any fun o => match o.instr with
    | .sbar _ => (List.range o.words.length).any fun j =>
        (o.at j).stage == .queued && (operand o.instr o.firing 1 j).word.getLsbD sid
    | _ => false

/-- The words of SBAR from word `j` on. -/
def sbarWords (f : SForm) (g : Firing) (op j : Nat) (s : State) : Nat → State
  | 0 => s.settleSbars g.task
  | n + 1 =>
    match s.fireWord g .t 1 with
    | .error s1 => s1
    | .ok s1 =>
      if performs (.sbar f) g j then
        let waits := match s1.task? g.task with
          | some t => t.unperformed (operand (.sbar f) g 0 j).word
          | none => []
        sbarWords f g op (j + 1) (s1.withOpWord g.task op j fun w => { w with stage := .queued, data := waits, pending := 1 }) n
      else sbarWords f g op (j + 1) (s1.finishWord g.task op j [.null]) n

/-- SBAR (R247). -/
def execSbar (f : SForm) (s : State) : Result :=
  withFiring s fun g s =>
    match s.beginOp (.sbar f) g (List.replicate g.n ⟨.waiting, 0, [], [], 0, [], 0, false, 0⟩) with
    | (op, s1) => sbarWords f g op 0 s1 g.n

/-! ### Element accesses (R243, R244) -/

/-- The access of a stream at an offset. -/
def Stream.access (x : Stream) (off : Word) (write : Bool) : Access :=
  ⟨x.instr.fields.seg, off, 4, write, true, BitVec.ofNat 5 x.sid⟩

/-- The checks of a stream access, with any table walk made at once: a physical address, or the task's fault. -/
def State.streamAddress (s : State) (id : Nat) (t : Task) (x : Stream) (a : Access) : Except State (State × Nat × BitVec 12) :=
  let types := segTypes x.instr
  let remote := fun (pa : Nat) => match x.remote with
    | some h => pa - scratchBase t.hoop + scratchBase h
    | none => pa
  let fail := fun (code : BitVec 8) (va : Nat) => Except.error (s.raiseAccess id x.firing.src x.firing.tag a code va)
  match s.checkAccess t (some x.tile) types a with
  | .ok pa key => .ok (s, remote pa, key)
  | .fault code va => fail code va
  | .walk va =>
    match s.walk t.tcb.asid va with
    | none => fail F_XLATE va
    | some (e, level) =>
      let s1 := s.fillTlb t.hoop (some x.tile) t.tcb.asid va e (level == 2)
      match s1.checkAccess t (some x.tile) types a with
      | .ok pa key => .ok (s1, remote pa, key)
      | .fault code va => fail code va
      | .walk va => fail F_XLATE va

/-- The line class of a stream access: shared memory's for a remote scratchpad (R222). -/
def Task.streamClass (t : Task) (x : Stream) (pa : Nat) : LineClass :=
  if x.remote.isSome then .shared else t.lineClass x.instr.fields.seg pa

/-- Set a stream's record. -/
def State.withStream (s : State) (id uid : Nat) (f : Stream → Stream) : State :=
  s.withTask id fun t => { t with streams := modifyWhere (fun x => x.uid == uid) f t.streams }

def State.stream? (s : State) (id uid : Nat) : Option (Task × Stream) :=
  (s.task? id).bind fun t => (t.openStreams.find? fun x => x.uid == uid).map fun x => (t, x)

/-- A word that a stream reads: from one of the four lines it fetched last, or by a line request, which staging serves
when it holds the whole line (R225, R292). -/
def State.streamRead (s : State) (id uid : Nat) (off : Word) : Except State (State × Word) :=
  match s.stream? id uid with
  | none => .error s
  | some (t, x) =>
    let a := x.access off false
    match s.streamAddress id t x a with
    | .error s1 => .error s1
    | .ok (s1, pa, key) =>
      let line := lineOf pa
      let word := fun (bs : List Byte) => BitVec.ofNat 32 (natOfBytes ((bs.drop (pa - line)).take 4))
      match x.lines.find? fun l => l.1 == line with
      | some l => .ok (s1, word l.2)
      | none =>
        let whole := t.servedByStaging none line 64
        match s1.debitLines x.firing (tileQuad x.tile) (if whole then .scratch else t.streamClass x pa) 1 with
        | .error s2 => .error s2
        | .ok s2 =>
          if !whole && !s2.lineGood pa key then
            .error (s2.raiseAccess id x.firing.src x.firing.tag a F_CHECK (t.shownVa a))
          else
            let bs := s2.readVisible t none line 64
            .ok (s2.withStream id uid fun y => { y with lines := ((line, bs) :: y.lines).take 4 }, word bs)

/-- The offset of element `e`: an index word is read for an indirect stream (R241). -/
def State.elementOffset (s : State) (id uid : Nat) (x : Stream) (e : Nat) : Except State (State × Word) :=
  if x.indirect then
    match s.streamRead id uid (x.idxoff + BitVec.ofNat 32 (4 * e)) with
    | .error s1 => .error s1
    | .ok (s1, w) => .ok (s1, x.base + w * BitVec.ofNat 32 (2 ^ (x.shift + 2)))
  else .ok (s, affineOffset x.base x.dims e)

/-- Emit the elements a read stream has gathered, each debiting T. -/
def State.flushStream (s : State) (id : Nat) (x : Stream) (outs : List Out) (next : Nat) : Except State State :=
  match wordLoop (fun _ s => nullStep x.firing s) s 0 outs.length with
  | .error s1 => .error s1
  | .ok (s1, _) =>
    let first := next - outs.length
    .ok ((s1.withStream id x.uid fun y => { y with outs := [] }).emitOuts x.firing .keep
      { x.firing.tag with iter := x.firing.tag.iter + BitVec.ofNat 12 first } [x.instr.fields.t0] outs)

/-- The instance of an element. -/
def Stream.elementInst (x : Stream) (e : Nat) : InstKey := x.firing.instAt e

/-- An access of a stream overlaps a registered range (R250). -/
def State.offsetHeld (s : State) (t : Task) (x : Stream) (off : Word) (write : Bool) : Bool :=
  match s.peekPa t (some x.tile) (segTypes x.instr) (x.access off write) with
  | some pa => s.rangeHolds (match x.remote with
    | some h => pa - scratchBase t.hoop + scratchBase h
    | none => pa) 4
  | none => false

/-- The next element of a stream lies in a registered range, or its index word does (R250). -/
def State.streamHeld (s : State) (t : Task) (x : Stream) : Bool :=
  if x.indirect then
    let at? := x.idxoff + BitVec.ofNat 32 (4 * x.next)
    s.offsetHeld t x at? false ||
      s.offsetHeld t x (x.base + s.peekIndex t x.instr x.tile x.idxoff x.next * BitVec.ofNat 32 (2 ^ (x.shift + 2))) x.write
  else s.offsetHeld t x (affineOffset x.base x.dims x.next) x.write

/-- One element of a read stream. -/
def State.readElement (s : State) (id : Nat) (t : Task) (x : Stream) : State :=
  if !s.admitted t (x.elementInst x.next) then
    (if x.outs.isEmpty then s.block
     else match s.flushStream id x x.outs x.next with
      | .error s1 => s1
      | .ok s1 => s1.push (.streamElementAccess id x.uid))
  else
    match s.elementOffset id x.uid x x.next with
    | .error s1 => s1
    | .ok (s1, off) =>
      match s1.streamRead id x.uid off with
      | .error s2 => s2
      | .ok (s2, w) =>
        let outs := x.outs ++ [.data x.fmt w]
        let s3 := (s2.active id).withStream id x.uid fun y => { y with outs := outs, next := x.next + 1 }
        let last := decide (x.count ≤ x.next + 1)
        if last || decide (x.runMax ≤ outs.length) then
          match s3.flushStream id x outs (x.next + 1) with
          | .error s4 => s4
          | .ok s4 =>
            if last then s4.closeStream id x else s4.push (.streamElementAccess id x.uid)
        else s3.push (.streamElementAccess id x.uid)

/-- A write stream has staged or skipped its last element. -/
def State.endWrite (s : State) (id : Nat) (x : Stream) : State := (s.closeStream id x).emitCount x x.count

/-- Pass to the next element of a write stream. -/
def State.nextWrite (s : State) (id : Nat) (x : Stream) (staged : Nat) : State :=
  let it := (x.firing.tag.iter + BitVec.ofNat 12 x.next).toNat
  let s1 := s.withStream id x.uid fun y =>
    { y with next := x.next + 1, done := x.done + staged, buffer := y.buffer.filter fun b => b.off != it }
  if x.count ≤ x.next + 1 then s1.endWrite id x else s1.push (.streamElementAccess id x.uid)

/-- One element of a write stream, whose word has arrived. -/
def State.writeElement (s : State) (id : Nat) (t : Task) (x : Stream) (b : Gathered) : State :=
  if b.fmt = 7 then
    match s.fireWord x.firing .t 1 with
    | .error s1 => s1
    | .ok s1 => s1.nextWrite id x 0
  else match s.elementOffset id x.uid x x.next with
    | .error s1 => s1
    | .ok (s1, off) =>
      match s1.fireWord x.firing .t 1 with
        | .error s2 => s2
        | .ok s2 =>
          let a := x.access off true
          match s2.streamAddress id t x a with
          | .error s3 => s3
          | .ok (s3, pa, key) =>
            match s3.stagePlain x.firing ⟨t.stageQuad x.firing.site, .stream x.uid, 0, pa, bytesOfNat b.word.toNat 4, key⟩
                (tileQuad x.tile) (t.streamClass x pa) with
            | .done s4 => s4.nextWrite id x 1
            | .full => s3.raiseAccess id x.firing.src x.firing.tag a F_STAGE (t.shownVa a)
            | .stopped s4 => s4

/-- STREAM_ELEMENT_ACCESS (R243, R244, R247, R250): `sid` is the stream's own number in its task. -/
def execStreamElementAccess (task sid : Nat) (s : State) : Result :=
  .next <|
    match s.stream? task sid with
    | none => s
    | some (t, x) =>
      if t.halted || x.asked || t.held x.sid || s.streamHeld t x then s.block
      else if x.write then
        match x.buffer.find? fun b => b.off == (x.firing.tag.iter + BitVec.ofNat 12 x.next).toNat with
        | some b => s.writeElement task t x b
        | none => s.block
      else s.readElement task t x

/-- The open write stream that takes a word of an instruction's port C at an iteration: as the first element not yet taken
whose iteration, modulo 4,096, it is (R243). -/
def Task.writeStream? (t : Task) (tag : Tag) : Option Stream :=
  t.openStreams.find? fun x => x.write && x.firing.tag.blk == tag.blk && x.firing.tag.inst == tag.inst &&
    x.firing.tag.ctx == tag.ctx && decide (x.next + (tag.iter - x.firing.tag.iter - BitVec.ofNat 12 x.next).toNat < x.count)

/-- How many leading words of a token the stream buffer of its tile, of 64 words, takes for a stream (R243). The word whose
turn it is takes no room. -/
def Task.bufferRoom (t : Task) (x : Stream) (tok : Token) : Nat :=
  let used := ((t.openStreams.filter fun y => y.tile == x.tile).map fun y => y.buffer.length).sum
  Nat.min tok.words.length (64 - used + if tok.tag.iter = x.firing.tag.iter + BitVec.ofNat 12 x.next then 1 else 0)

/-- A token that waits at a write stream's port finds the buffer full. -/
def Task.bufferFull (t : Task) (fl : Flight) : Bool :=
  match t.writeStream? fl.tok.tag with
  | some x => t.bufferRoom x fl.tok == 0
  | none => false

/-- STREAM_DATA_ARRIVAL (R243): the words of a port C token join the stream buffer; words that find no room, or no stream
open for them, wait at the port. -/
def execStreamDataArrival (fl : Flight) (s : State) : Result :=
  .next <|
    match s.task? fl.task with
    | none => s
    | some t =>
      if t.phase.leaving then s
      else match t.writeStream? fl.tok.tag with
        | none => s.block
        | some x =>
          let n := t.bufferRoom x fl.tok
          if n = 0 then s.block
          else
            let words : List Gathered := (fl.tok.words.take n).mapIdx fun k w =>
              ⟨(fl.tok.tag.iter + BitVec.ofNat 12 k).toNat, fl.tok.tag.fmt, w⟩
            let s1 := s.withStream fl.task x.uid fun y => { y with buffer := y.buffer ++ words }
            if n < fl.tok.words.length then s1.become (.streamDataArrival { fl with tok := fl.tok.part n (fl.tok.words.length - n) })
            else s1

end Sys2Proof.Machine
end

