-- ==== Sys2Proof/Machine/Arrival.lean ====
section
/-!
DEFINITION. The arrival of tokens (R26, R29, R31, R39 to R43, R47 to R50, R162, R173 to R175, R187, R193, R286): their
checks, the header latches, matching, the windows of gathering instructions, and spill.
-/

namespace Sys2Proof

/-- The defects of a CTL token (R29). -/
def controlDefect (ws : List Word) : Bool :=
  let w := ws.headD 0
  let plain := bits w 15 8 == 0
  !bitsZero w 31 16 ||
    !(match controlKind ws with
      | 1 => ws.all fun x => x == nullWord
      | 2 => plain && ws.length == 1
      | 3 => ws.length == 1
      | 4 => plain && ws.length == 2
      | 5 => bits w 15 11 == 0 && ws.length == 1
      | 6 => plain && ws.length == 4
      | _ => false)

/-- The defects of an HDR token (R64). -/
def headerDefect (ws : List Word) : Bool :=
  let w := ws.headD 0
  ws.length != 1 || !bitsZero w 31 20 || !(bits w 19 17 == 4 || bits w 19 17 == 5)

/-- A path bit at or above the path depth, or an illegal depth (R26). -/
def Tag.corrupt (t : Tag) : Bool := decide (4 < t.pdep.toNat) || decide (2 ^ t.pdep.toNat ≤ t.path.toNat)

/-- Whether a port accepts a token (R31). A NULL token passes on any port. -/
def Accept.takes (a : Accept) (t : Token) : Bool :=
  if t.tag.fmt = 7 then controlKind t.words == 1 || a.kinds.getLsbD (controlKind t.words)
  else a.fmts.getLsbD t.tag.fmt.toNat

/-- The port that keeps a header latch (R434). -/
def Instr.latchPort : Instr → Option (BitVec 2)
  | .cvt f => if cvtSfmt f.lit = 4 ∨ cvtSfmt f.lit = 5 then some 0 else none
  | .stv _ fmt => if fmt = 4 ∨ fmt = 5 then some 1 else none
  | _ => none

/-- Port C of a write opener or of a sparse load does not enter matching (R243, R397). -/
def Instr.sidePort (i : Instr) (port : BitVec 2) : Bool :=
  port == 2 && (match i with
    | .sopenWrite _ _ | .sindWrite _ _ | .oploadSparse _ => true
    | _ => false)

/-- An EOS or BARRIER token. -/
def Token.endsData (t : Token) : Bool := t.tag.fmt == 7 && (controlKind t.words == 2 || controlKind t.words == 3)

/-- A token that forms a set without partners, whatever other ports its instruction has (R186, R286). -/
def Instr.takesAlone (i : Instr) (t : Token) : Bool :=
  match i with
  | .merge _ => !t.endsData
  | .steer _ => t.tag.port == 0 && t.endsData
  | _ => false

/-- The ports whose tokens a set needs beside one (R30). -/
def Instr.partners (i : Instr) (port : BitVec 2) : List (BitVec 2) :=
  ([0, 1, 2, 3] : List (BitVec 2)).filter fun q => q != port && i.takesToken q && !i.sidePort q

/-- Two tags under one matching key (R40): what a port leaves out. -/
def Tag.meets (a b : Tag) : Bool :=
  a.ctx == b.ctx && a.blk == b.blk && a.inst == b.inst && a.path == b.path && a.pdep == b.pdep

end Sys2Proof

namespace Sys2Proof.Machine

/-! ### Tokens that go no further -/

/-- The hoop of a token's task; of a task that has left, the hoop that still holds its retired context. -/
def State.hoopOf (s : State) (fl : Flight) : Option Nat :=
  match s.task? fl.task with
  | some t => some t.hoop
  | none => (List.range 64).find? fun h => (s.hoop h).retired.any fun r => r.1 == fl.tok.tag.ctx && r.2 == fl.task

/-- A token is discarded and counted in the hoop's stray-token counter (R52). -/
def State.stray (s : State) (fl : Flight) : State :=
  match s.hoopOf fl with
  | some h => s.withHoop h fun x => { x with stray := x.stray + 1 }
  | none => s

/-- Iterations whose tokens are discarded on arrival: stale ones and squashed ones (R187, R193). -/
def Task.deadOnArrival (t : Task) (k : InstKey) : Bool :=
  t.squashed k.blk k.ctx k.iter || (match t.window? k.blk k.ctx with
    | some w => decide (2048 ≤ w.offset k.iter)
    | none => false)

/-! ### What becomes of a part of an arriving token -/

/-- What becomes of a part. -/
inductive Taken where
  /-- It is matched, waits, is held or is gone; the parts split off are examined next (R41). -/
  | done (s : State) (rest : List Flight)
  /-- It waits elsewhere than in the matching store. -/
  | event (s : State) (e : Instr)
  /-- Its port keeps it (R43). -/
  | hold
  /-- The spill area is searched for its partners (R48). -/
  | search
  /-- Its task stopped. -/
  | stop (s : State)
  deriving DecidableEq, Repr

def Taken.ofExcept (r : Except State State) : Taken :=
  match r with
  | .ok s => .done s []
  | .error s => .stop s

/-! ### Header latches (R174, R175) -/

def Latch.isFor (l : Latch) (fl : Flight) : Bool :=
  l.site == fl.dst && l.blk == fl.tok.tag.blk && l.inst == fl.tok.tag.inst && l.ctx == fl.tok.tag.ctx

/-- A latch of the token's own key, or a free one of the 16. -/
def Task.latchOpen (t : Task) (fl : Flight) : Bool :=
  t.latches.any (fun l => l.isFor fl) || decide ((t.latches.filter fun l => l.site == fl.dst).length < 16)

/-- A header replaces its latch and debits T (R174). -/
def State.latchHeader (s : State) (t : Task) (fl : Flight) : Except State State :=
  let w := fl.tok.words.headD 0
  let tag := fl.tok.tag
  let l : Latch := ⟨fl.dst, tag.blk, tag.inst, tag.ctx, w.extractLsb' 0 8, BitVec.ofNat 3 (bits w 19 17), bits w 15 8 + 1, w.getLsbD 16⟩
  match s.debits t.id (t.domainOf fl.dst) CostClass.t.units 1 with
  | .error s1 => .error (s1.stopShort t.id (t.domainOf fl.dst) (some (tag.blk, tag.inst)))
  | .ok s1 => .ok (s1.withTask t.id fun t => { t with latches := (t.latches.filter fun m => !m.isFor fl) ++ [l] })

/-- A scaled token that its latch does not cover (R174). -/
def Task.scaleMissing (t : Task) (i : Instr) (fl : Flight) : Bool :=
  let fmt := fl.tok.tag.fmt
  i.latchPort == some fl.tok.tag.port && (fmt == 4 || fmt == 5) && fl.bound.isNone && (match t.latches.find? fun l => l.isFor fl with
    | some l => l.efmt != fmt || decide (l.left < fl.tok.words.length)
    | none => true)

/-- A scaled part is bound to its latch, and its words are taken from the remaining count; a header with LAST whose
count comes to zero frees its latch (R174, R175). -/
def Task.bindScale (t : Task) (i : Instr) (fl : Flight) : Task × Flight :=
  let fmt := fl.tok.tag.fmt
  if i.latchPort == some fl.tok.tag.port && (fmt == 4 || fmt == 5) && fl.bound.isNone then
    match t.latches.find? fun l => l.isFor fl with
    | none => (t, fl)
    | some l =>
      let left := l.left - fl.tok.words.length
      let rest := if left = 0 ∧ l.last then t.latches.filter fun m => !m.isFor fl
        else modifyWhere (fun m => m.isFor fl) (fun m => { m with left := left }) t.latches
      ({ t with latches := rest }, { fl with bound := some l.scale })
  else (t, fl)

/-! ### Matching (R40 to R43) -/

/-- Where an iteration lies in a waiting token. -/
def Wait.back (w : Wait) (iter : BitVec 12) : Nat := (iter - w.tok.tag.iter).toNat
def Wait.covers (w : Wait) (iter : BitVec 12) : Bool := decide (w.back iter < w.tok.span)

/-- The iterations whose presence bits an arriving token has: those of its run, or those of the window that a gathering
instruction puts it in (R48, R162). -/
def searchSpan (i : Instr) (tok : Token) : BitVec 12 × Nat :=
  if i.gathers then
    let size := i.gatherSize
    let first := windowBase size tok.tag.iter
    (first, (((tok.tag.iter - first).toNat + tok.span - 1) / size + 1) * size)
  else (tok.tag.iter, tok.span)

/-- A presence bit of an arriving token is set (R48). -/
def Task.spillNear (t : Task) (i : Instr) (fl : Flight) : Bool :=
  match searchSpan i fl.tok with
  | (iter, n) => (presenceBits { fl.tok.tag with iter := iter } n).any fun b => t.filters.any fun p => p.site == fl.dst && p.bit == b

/-- The waiting tokens of a port under a token's key. -/
def Task.mates (t : Task) (fl : Flight) (near : Bool) (port : BitVec 2) : List Wait :=
  t.waiting.filter fun w => !w.held && w.site == fl.dst && (near || w.slot.isNone) && w.tok.tag.port == port &&
    fl.tok.tag.meets w.tok.tag

/-- One waiting token of each port that covers an iteration. -/
def Task.matesAt (t : Task) (fl : Flight) (near : Bool) (iter : BitVec 12) : List (BitVec 2) → Option (List Wait)
  | [] => some []
  | q :: qs =>
    match (t.mates fl near q).find? fun w => w.covers iter with
    | none => none
    | some w => (t.matesAt fl near iter qs).map fun ws => w :: ws

/-- The first iteration of a token, from its word `j` on, that every other port has a token for. -/
def Task.meeting (t : Task) (fl : Flight) (near : Bool) (ports : List (BitVec 2)) (j : Nat) : Nat → Option (Nat × List Wait)
  | 0 => none
  | n + 1 =>
    match t.matesAt fl near (fl.tok.tag.iter + BitVec.ofNat 12 j) ports with
    | some ws => some (j, ws)
    | none => t.meeting fl near ports (j + 1) n

/-- The set that a token forms with its partners over `n` iterations from its word `j`. -/
def formSet (t : Task) (fl : Flight) (j n : Nat) (ws : List Wait) (flush : Option Nat) : Firing :=
  let iter := fl.tok.tag.iter + BitVec.ofNat 12 j
  let at? := fun (p : BitVec 2) =>
    if fl.tok.tag.port = p then some (fl.tok.part j n)
    else (ws.find? fun w => w.tok.tag.port == p).map fun w => w.tok.part (w.back iter) n
  let a := at? 0
  let tag : Tag := { fl.tok.tag with iter := iter, port := 0, fmt := 0, rdir := a.bind fun k => k.tag.rdir }
  -- The source of the token on the lowest-numbered port.
  let src := (ws.find? fun w => decide (w.tok.tag.port.toNat < fl.tok.tag.port.toNat) && ws.all fun v =>
    decide (w.tok.tag.port.toNat ≤ v.tok.tag.port.toNat)).map (·.src)
  ⟨t.id, fl.dst, tag, n, a, at? 1, at? 2, at? 3, ws.foldl (fun x w => x ||| w.scale) (fl.bound.getD 0), [], t.nextOp,
    src.getD fl.src, [], flush⟩

/-- The parts of a token outside the words that a set takes. -/
def outside (fl : Flight) (j n : Nat) : List Flight :=
  let span := fl.tok.span
  (if j = 0 then [] else [{ fl with tok := fl.tok.part 0 j }]) ++
    (if j + n < span then [{ fl with tok := fl.tok.part (j + n) (span - (j + n)) }] else [])

/-- A waiting token taken up again as a part to be examined. -/
def Wait.flight (w : Wait) (id : Nat) : Flight := ⟨id, w.src, w.site, 0, w.tok, some w.scale, none⟩

/-- The parts that a set leaves of a waiting token: the first stays in the token's entry where it has one, and the others
are to be examined (R41). -/
def Wait.leaves (w : Wait) (id : Nat) (iter : BitVec 12) (n : Nat) : List Wait × List Flight :=
  match outside (w.flight id) (w.back iter) n with
  | [] => ([], [])
  | p :: ps => if w.slot.isNone then ([{ w with tok := p.tok }], ps) else ([], p :: ps)

/-- The task once a set has taken `n` iterations of its partners (R41, R48). -/
def Task.afterSet (t : Task) (ws : List Wait) (iter : BitVec 12) (n : Nat) : Task :=
  t.settleSpill { t with waiting := t.waiting.flatMap fun w => if ws.contains w then (w.leaves t.id iter n).1 else [w] }

/-- The token at fault of a set whose formats do not agree (R147, R161). -/
def misfit (i : Instr) (g : Firing) : Option Token :=
  let packed := fun (ports : List (BitVec 2)) => match packedTokens i g ports with
    | [] => none
    | t :: ts => if ts.any fun u => u.tag.fmt != t.tag.fmt then some t else none
  match i with
  | .sel f => selMixed f g
  | .padd2 _ | .pmul2 _ => packed [0, 1]
  | .pfma2 _ => packed [0, 1, 2]
  | .dot2 _ => packed [1, 2]
  | _ => none

/-- A set is complete, unless its formats do not agree. -/
def State.completeSet (s : State) (i : Instr) (g : Firing) : State :=
  match misfit i g with
  | some t => s.raiseFmt g.task g.src t 0x04 (t.words.headD 0)
  | none => s.pushFiring g

/-- Spilled partners of a set are brought back: their lines are debited (R48, R49). -/
def State.fetchPartners (s : State) (t : Task) : List Wait → Except State State
  | [] => .ok s
  | w :: ws =>
    match if w.slot.isSome then s.spillIn t.id w.site w.tok.words.length id else .ok s with
    | .error s1 => .error s1
    | .ok s1 => s1.fetchPartners t ws

/-- A token that meets its partners: the set over the iterations that all cover, and what lies outside it (R41). The port
keeps the token while neither a partner's entry nor a free one, with the pool words that the set needs, can hold the set
(R43). -/
def State.formWith (s : State) (t : Task) (i : Instr) (fl : Flight) (j : Nat) (ws : List Wait) (flush : Option Nat) : Taken :=
  let iter := fl.tok.tag.iter + BitVec.ofNat 12 j
  let n := (ws.map fun w => w.tok.span - w.back iter).foldl Nat.min (fl.tok.span - j)
  let g := formSet t fl j n ws flush
  let words := (g.tokens.map fun k => k.words.length).sum
  if !(t.afterSet ws iter n).openTo (s.setsOf t.id) fl.dst fl.tok.tag.ctx 1 words then .hold
  else match s.fetchPartners t ws with
    | .error s1 => .stop s1
    | .ok s1 => .done ((s1.withTask t.id fun t => t.afterSet ws iter n).completeSet i g)
        (outside fl j n ++ ws.flatMap fun w => (w.leaves t.id iter n).2)

/-- A token that waits for its partners, in an entry open to its context or in spill (R42, R47). -/
def State.awaitPartners (s : State) (t : Task) (fl : Flight) : Taken :=
  let w : Wait := ⟨fl.dst, fl.tok, fl.bound.getD 0, false, none, fl.src, none⟩
  let put := fun (s : State) (w : Wait) => s.withTask t.id fun t => { t with waiting := t.waiting ++ [w] }
  if t.openTo (s.setsOf t.id) fl.dst fl.tok.tag.ctx 1 fl.tok.words.length then .done (put s w) []
  else match s.spillOut t.id fl.dst fl.src fl.tok.tag fl.tok.words.length fl.tok.span with
    | .error s1 => .stop s1
    | .ok (k, s1) => .done (put s1 { w with slot := some k }) []

/-- A BARRIER or EOS of MERGE that waits on the other port for this one (R286). -/
def Task.mergeMate (t : Task) (f : StdForm) (fl : Flight) (near : Bool) : Option Wait :=
  let tag := fl.tok.tag
  t.waiting.find? fun w =>
    let o := w.tok.tag
    !w.held && w.site == fl.dst && (near || w.slot.isNone) && o.port != tag.port && o.fmt == 7 && w.tok.words == fl.tok.words &&
      o.blk == tag.blk && o.inst == tag.inst && o.ctx == tag.ctx && o.iter == tag.iter &&
      (o.act f.tact).path == (tag.act f.tact).path && (o.act f.tact).pdep == (tag.act f.tact).pdep

/-! ### Gathering (R162, R163, R166, R167, R279) -/

/-- A held word lies in the same open window as an arriving one. -/
def sameWindow (size : Nat) (fl : Flight) (w : Wait) : Bool :=
  w.held && w.flush.isNone && w.site == fl.dst && fl.tok.tag.meets w.tok.tag && windowBase size w.tok.tag.iter == windowBase size fl.tok.tag.iter

/-- A complete window of the same key that has not fired still holds the iteration. -/
def State.windowUnfired (s : State) (t : Task) (size : Nat) (fl : Flight) : Bool :=
  (s.setsOf t.id).any fun g => g.site == fl.dst && !g.win.isEmpty && g.flush.isNone && fl.tok.tag.meets g.tag && g.tag.iter == windowBase size fl.tok.tag.iter

/-- Every iteration of a window is present; for QPUT on both of its ports. -/
def windowComplete (i : Instr) (size : Nat) (base : BitVec 12) (ws : List Wait) : Bool :=
  let has := fun (port : BitVec 2) (k : Nat) => ws.any fun w => w.tok.tag.port == port && w.tok.tag.iter == base + BitVec.ofNat 12 k
  (List.range size).all fun k => has 0 k && (match i with
    | .qput _ => has 2 k
    | _ => true)

/-- The words of a window on one port, in order. -/
def windowWords (size : Nat) (base : BitVec 12) (port : BitVec 2) (ws : List Wait) : List Gathered :=
  (List.range size).filterMap fun k =>
    (ws.find? fun w => w.tok.tag.port == port && w.tok.tag.iter == base + BitVec.ofNat 12 k).map fun w =>
      ⟨k, w.tok.tag.fmt, w.tok.words.headD 0⟩

/-- The set of a complete window. The A words of QPUT are one token, a NULL token where one of them is NULL. -/
def windowSet (t : Task) (i : Instr) (size : Nat) (fl : Flight) (ws : List Wait) : Firing :=
  let base := windowBase size fl.tok.tag.iter
  let tag : Tag := { fl.tok.tag with iter := base, port := 0, fmt := 0, rdir := none }
  let as := windowWords size base 0 ws
  match i with
  | .qput _ =>
    let a : Token := if as.any fun w => w.fmt == 7 then ⟨{ tag with fmt := 7 }, List.replicate size nullWord⟩
      else ⟨tag, as.map (·.word)⟩
    ⟨t.id, fl.dst, tag, size, some a, none, none, none, 0, windowWords size base 2 ws, t.nextOp, fl.src, [], none⟩
  | _ => ⟨t.id, fl.dst, tag, size, none, none, none, none, 0, as, t.nextOp, fl.src, [], none⟩

/-- The spilled words of a window return while room is open to them, or all of them to a window that is complete
(R162). -/
def State.returnWindow (s : State) (id : Nat) (all : Bool) : List Wait → Except State State
  | [] => .ok s
  | w :: ws =>
    match s.task? id with
    | none => .ok s
    | some t =>
      let entries := if t.waiting.any fun v => v.slot.isNone && v.held && v.site == w.site && t.windowKey v == t.windowKey w then 0 else 1
      if w.slot.isNone || !(all || t.openTo (s.setsOf id) w.site w.tok.tag.ctx entries 1) then s.returnWindow id all ws
      else
        let back := fun (v : Wait) => { v with slot := none }
        match s.spillIn id w.site 1 fun t => { t with waiting := modifyWhere (fun v => v == w) back t.waiting } with
        | .error s1 => .error s1
        | .ok s1 => s1.returnWindow id all ws

/-- A word joins its window's entry, takes a new one, or spills (R162). -/
def State.holdWord (s : State) (id : Nat) (size : Nat) (fl : Flight) : Taken :=
  match s.task? id with
  | none => .stop s
  | some t =>
    let entries := if t.waiting.any fun w => sameWindow size fl w && w.slot.isNone then 0 else 1
    let w : Wait := ⟨fl.dst, fl.tok, 0, true, none, fl.src, none⟩
    let put := fun (s : State) (w : Wait) => s.withTask id fun t => { t with waiting := t.waiting ++ [w] }
    if t.openTo (s.setsOf id) fl.dst fl.tok.tag.ctx entries 1 then .done (put s w) []
    else match s.spillOut id fl.dst fl.src fl.tok.tag 1 1 with
      | .error s1 => .stop s1
      | .ok (k, s1) => .done (put s1 { w with slot := some k }) []

/-- A word of a QPUT window that has lost an iteration to a squash: it is dropped, and its instance counts its LSID as
a null if it has not yet (R279). -/
def State.dropPut (s : State) (t : Task) (i : Instr) (fl : Flight) : State :=
  let k : InstKey := ⟨fl.tok.tag.blk, fl.tok.tag.ctx, fl.tok.tag.iter⟩
  let s1 := s.stray fl
  match t.inst? k with
  | some x => if x.has (.lsid i.fields.lsid) then s1 else s1.count t.id fl.src fl.tok.tag k (.lsid i.fields.lsid)
  | none => s1

/-- A word of a gathering instruction arrives: it may be a second one for its iteration, differ in format from its
window, complete the window, or be held. A word that completes its window never spills: the port keeps it while the pool
cannot hold the window's words (R43). -/
def State.gatherWord (s : State) (t : Task) (i : Instr) (fl : Flight) : Taken :=
  let size := i.gatherSize
  let tag := fl.tok.tag
  let base := windowBase size tag.iter
  let win := t.waiting.filter (sameWindow size fl)
  let oneFormat := match i with
    | .join _ | .reord _ => true
    | _ => false
  let puts := match i with
    | .qput _ => true
    | _ => false
  if puts && (List.range size).any fun k => t.squashed tag.blk tag.ctx (base + BitVec.ofNat 12 k) then .done (s.dropPut t i fl) []
  else if s.windowUnfired t size fl || win.any fun w => w.tok.tag.port == tag.port && w.tok.tag.iter == tag.iter then
    .stop (s.raiseIll t.id fl.src tag 0x11)
  else if oneFormat && tag.fmt != 7 && win.any fun w => w.tok.tag.fmt != 7 && w.tok.tag.fmt != tag.fmt then
    .stop (s.raiseFmt t.id fl.src fl.tok 0x04 (fl.tok.words.headD 0))
  else
    let mine : Wait := ⟨fl.dst, fl.tok, 0, true, none, fl.src, none⟩
    let full := windowComplete i size base (win ++ [mine])
    let without := { t with waiting := t.waiting.filter fun w => !sameWindow size fl w }
    if full && !without.openTo (s.setsOf t.id) fl.dst tag.ctx 1 (win.length + 1) then .hold
    else match s.returnWindow t.id full win with
    | .error s1 => .stop s1
    | .ok s1 =>
      if full then
        .done ((s1.withTask t.id fun t => { t with waiting := t.waiting.filter fun w => !sameWindow size fl w }).pushFiring
          (windowSet t i size fl (win ++ [mine]))) []
      else s1.holdWord t.id size fl

/-- The open windows of a control token's context and path that a gathering instruction flushes: their words belong to the
token's set from its receipt on (R163). -/
def Task.seal (t : Task) (fl : Flight) (k : Nat) : Task :=
  let close := fun (w : Wait) => { w with flush := some k }
  { t with waiting := modifyWhere (fun w => w.held && w.flush.isNone && w.site == fl.dst && fl.tok.tag.meets w.tok.tag) close t.waiting }

/-! ### One part -/

/-- The leading words of a count token of LOOPI from word `j` on that a live issue covers: they are taken without the
other operands of the instruction (R199). -/
def Task.coveredRun (t : Task) (fl : Flight) (j : Nat) : Nat → Nat
  | 0 => 0
  | n + 1 => if (t.liveIssues fl.tok.tag).any fun l => l.covers fl.tok.tag (fl.tok.tag.iter + BitVec.ofNat 12 j)
      then t.coveredRun fl (j + 1) n + 1 else 0

/-- A part enters matching. -/
def State.matchPart (s : State) (t : Task) (i : Instr) (fl : Flight) : Taken :=
  let near := t.spillNear i fl
  let alone := i.takesAlone fl.tok
  let ports := if alone then [] else i.partners fl.tok.tag.port
  let match' := match t.meeting fl near ports 0 fl.tok.span with
    | some (j, ws) => s.formWith t i fl j ws none
    | none => s.awaitPartners t fl
  if i.gathers && !fl.tok.endsData then
    match s.gatherWord t i { fl with tok := fl.tok.part 0 1 } with
    | .done s1 more => .done s1 (more ++ if fl.tok.span ≤ 1 then [] else [{ fl with tok := fl.tok.part 1 (fl.tok.span - 1) }])
    | r => r
  else match i with
    | .merge f =>
      if alone then s.formWith t i fl 0 [] none
      else match t.mergeMate f fl near with
        | none => s.awaitPartners t fl
        | some w => s.formWith t i fl 0 [w] none
    | .comb _ => .done (s.completeSet i (formSet t fl 0 fl.tok.span [] none)) []
    | .loopi _ =>
      let n := if fl.tok.tag.port = 0 then t.coveredRun fl 0 fl.tok.span else 0
      if n = 0 then match'
      else match s.formWith t i { fl with tok := fl.tok.part 0 n } 0 [] none with
        | .done s1 more => .done s1 (more ++ if n < fl.tok.span then [{ fl with tok := fl.tok.part n (fl.tok.span - n) }] else [])
        | r => r
    | _ =>
      if i.gathers then
        match s.freshen.formWith t i fl 0 [] (some s.fresh) with
        | .done s1 more => .done (s1.withTask t.id fun t => t.seal fl s.fresh) more
        | r => r
      else match'

/-- One part of an arriving token. -/
def State.takePart (s : State) (searched : Bool) (fl : Flight) : Taken :=
  match s.task? fl.task with
  | none => .done (s.stray fl) []
  | some t =>
    match t.instr? fl.tok.tag.blk fl.tok.tag.inst with
    | none => .done (s.stray fl) []
    | some i =>
      let port := fl.tok.tag.port
      if i.sidePort port then
        .event s (match i with
          | .oploadSparse _ => .sparseCoordinate fl
          | _ => .streamDataArrival fl)
      else if fl.tok.tag.fmt = 6 ∧ i.latchPort = some port then
        (if t.latchOpen fl then Taken.ofExcept (s.latchHeader t fl) else .event s (.headerLatchFreed fl))
      else if !searched && t.spillNear i fl then .search
      else if t.scaleMissing i fl then .stop (s.raiseFmt t.id fl.src fl.tok 0x05 (fl.tok.words.headD 0))
      else match t.bindScale i fl with
        | (t1, fl1) => (s.withTask t.id fun _ => t1).matchPart t1 i fl1

/-- The parts of an arriving token, one after another, with what each splits off. The answer is the state and the
events that stand in the token's place. -/
def State.takeParts (s : State) (searched : Bool) (parts : List Flight) (evs : List Instr) : Nat → State × List Instr
  | 0 => (s, evs ++ parts.map Instr.heldTokenAccept)
  | n + 1 =>
    match parts with
    | [] => (s, evs)
    | p :: rest =>
      match s.takePart searched p with
      | .done s1 more => s1.takeParts true (more ++ rest) evs n
      | .event s1 e => s1.takeParts true rest (evs ++ [e]) n
      | .hold => (s, evs ++ .heldTokenAccept p :: rest.map Instr.heldTokenAccept)
      | .search => (s, evs ++ .spillSearch p :: rest.map Instr.heldTokenAccept)
      | .stop s1 => (s1, evs ++ rest.map Instr.heldTokenAccept)

/-- Enough turns for the parts and for everything that waits. -/
def Task.turns (t : Task) (tok : Token) : Nat := 2 * ((t.waiting.map fun w => w.tok.words.length).sum + tok.words.length) + 2

/-- Events stand in the place of the current item. -/
def State.putBack (s : State) (es : List Instr) : State :=
  match s.cur with
  | some (_, k) => { s with agenda := s.agenda.take k ++ es.map Item.event ++ s.agenda.drop k, cur := none }
  | none => s.pushAll es

/-! ### The checks on arrival -/

/-- What the checks of an arriving token answer (R29, R31, R64, R173). -/
inductive Check where
  | accept
  | detour (conv : Nat)
  | refuse (reason : BitVec 8)
  deriving DecidableEq, Repr

/-- The checks, in order. A token that has been detoured, or that the conversion node itself refuses, is not detoured
again. -/
def checkToken (t : Task) (i : Instr) (tok : Token) : Check :=
  let conv := (t.block? tok.tag.blk).bind (·.conv)
  let isCoord := i.sidePort tok.tag.port && tok.tag.fmt == 7 && (match i with
    | .oploadSparse _ => true
    | _ => false)
  if tok.tag.fmt = 7 ∧ controlDefect tok.words then .refuse 0x02
  else if tok.tag.fmt = 6 ∧ headerDefect tok.words then .refuse 0x03
  else if (i.accepts tok.tag.port).takes tok || isCoord then .accept
  else if tok.tag.fmt = 7 then .refuse 0x07
  else if tok.tag.fmt = 6 then .refuse 0x01
  else match conv with
    | none => .refuse (if tok.tag.rdir.isNone then 0x01 else 0x06)
    | some c => if c = tok.tag.inst.toNat ∨ tok.tag.rdir.isSome then .refuse 0x06 else .detour c

/-- The part of a token on its way to the conversion node (R173). -/
def Task.detoured (t : Task) (fl : Flight) (c oq : Nat) : Flight :=
  let inst : BitVec 7 := BitVec.ofNat 7 c
  let tag : Tag := { fl.tok.tag with inst := inst, port := 0, rdir := some (fl.tok.tag.inst ++ fl.tok.tag.port) }
  ⟨fl.task, fl.dst, t.siteOf tag.blk inst tag.iter, oq, ⟨tag, fl.tok.words⟩, none, some (Tag.emitter tag)⟩

/-- A task that tokens still reach: it runs, or it halts for a save (R345). -/
def Task.receives (t : Task) : Bool :=
  match t.phase with
  | .running | .halting => true
  | _ => false

/-- The instances of a token's live parts come into being (R54, R187). -/
def State.enterInstances (s : State) (id : Nat) (parts : List Token) : State :=
  parts.foldl (fun s p => (List.range p.span).foldl (fun s j => s.ensureInst id p.tag (p.tag.iter + BitVec.ofNat 12 j)) s) s

/-- A token reaches its destination's matching stage. `searched` says that it has been held for a spill search or by
its port before. -/
def State.arrive (s : State) (searched : Bool) (fl : Flight) : State :=
  match s.task? fl.task with
  | none => s.stray fl
  | some t =>
    if !t.receives || (t.context? fl.tok.tag.ctx).isNone then s.stray fl
    else if fl.tok.tag.corrupt then
      s.freshen.raise t.id (.at F_ECC fl.src (Config.unstatedDetail s.fresh 0) (fl.dst.src.zeroExtend 32) 0 0)
    else
      let parts := liveParts t.deadOnArrival fl.tok
      let s1 := if anyDead t.deadOnArrival fl.tok then s.stray fl else s
      match parts, t.instr? fl.tok.tag.blk fl.tok.tag.inst with
      | [], _ => s1
      | _, none => s1.stray fl
      | p :: _, some i =>
        let s2 := (s1.active t.id).enterInstances t.id parts
        let flights := parts.map fun k => { fl with tok := k }
        match checkToken t i p with
        | .refuse r => s2.raiseFmt t.id fl.src fl.tok r (fl.tok.words.headD 0)
        | .detour c => s2.freshen.putBack (flights.map fun f => .tokenRoute (t.detoured f c s2.fresh))
        | .accept =>
          match s2.takeParts searched flights [] (t.turns fl.tok) with
          | (s3, evs) => s3.putBack evs

/-- The first part of a kept token would still be kept. -/
def State.stillHeld (s : State) (fl : Flight) : Bool :=
  match s.task? fl.task with
  | none => false
  | some t =>
    t.receives && (t.context? fl.tok.tag.ctx).isSome && (match liveParts t.deadOnArrival fl.tok with
      | [] => false
      | p :: _ => match s.takePart true { fl with tok := p } with
        | .hold => true
        | _ => false)

/-! ### The events of a token's way -/

/-- A receiving port that keeps a token refuses the others (R43, R48, R243), but not those of its task's oldest context
while the token is of a younger one: young work never holds what the oldest needs (R56; log entry 128). -/
def State.portClosed (s : State) (fl : Flight) : Bool :=
  let keeps := fun (f : Flight) => f.task == fl.task && f.dst == fl.dst && (f.tok.tag.ctx == fl.tok.tag.ctx ||
    !(match (s.task? fl.task).bind Task.oldest with
      | some c => c.ctx == fl.tok.tag.ctx
      | none => false))
  s.agenda.any fun x => match x with
    | .event (.heldTokenAccept f) | .event (.spillSearch f) => keeps f
    | .event (.streamDataArrival f) => keeps f && (match s.task? f.task with
      | some t => t.bufferFull f
      | none => false)
    | _ => false

/-- An HDR token that finds no latch while another waits in the port's holding place is refused (R175). -/
def State.headerRefused (s : State) (fl : Flight) : Bool :=
  match s.task? fl.task with
  | none => false
  | some t =>
    fl.tok.tag.fmt == 6 && !t.latchOpen fl && (match t.instr? fl.tok.tag.blk fl.tok.tag.inst with
      | some i => i.latchPort == some fl.tok.tag.port
      | none => false) && s.agenda.any fun x => match x with
        | .event (.headerLatchFreed f) => f.task == fl.task && f.dst == fl.dst
        | _ => false

/-- TOKEN_ROUTE (R38, R39): the network brings a token to its destination. The step that it is taken up in is the
network's choice. -/
def execTokenRoute (fl : Flight) (s : State) : Result := .next (s.become (.tokenArrival fl))

/-- TOKEN_ARRIVAL (R26 to R31, R40 to R43). -/
def execTokenArrival (fl : Flight) (s : State) : Result :=
  .next (if s.portClosed fl || s.headerRefused fl then s.block else s.arrive false fl)

/-- SPILL_SEARCH (R48, R385). -/
def execSpillSearch (fl : Flight) (s : State) : Result := .next (s.arrive true fl)

/-- HELD_TOKEN_ACCEPT (R43). -/
def execHeldTokenAccept (fl : Flight) (s : State) : Result :=
  .next (if s.stillHeld fl then s.block else s.arrive true fl)

/-- HEADER_LATCH_FREED (R175). -/
def execHeaderLatchFreed (fl : Flight) (s : State) : Result :=
  .next <|
    match s.task? fl.task with
    | none => s.stray fl
    | some t => if t.receives && (t.context? fl.tok.tag.ctx).isSome && !t.latchOpen fl then s.block else s.arrive true fl

end Sys2Proof.Machine
end

