-- ==== Sys2Proof/Machine/Registers.lean ====
section
/-!
DEFINITION. The system registers (R470): where each lies, what it reads, and what a write does to it.
-/

namespace Sys2Proof.Machine

/-- The registers of R470. -/
inductive Reg where
  | id | node | ctl | rstcause | pool | feedcap | time | asbase | tlbinv
  | elbase | elctl | elhead | eltail
  | incfg (n : Nat) | egcfg (n : Nat) | link (p : Nat)
  | sched (k : Nat) | fqbase (k : Nat) | fqctl (k : Nat) | fqhead (k : Nat) | fqtail (k : Nat)
  | quiet (h : Nat) | stray (h : Nat)
  | qmCtl (h d : Nat) | qmTarget (h d : Nat) | qmStat (h d : Nat) | qmDeliv (h d : Nat) | qmRetn (h d : Nat) | qmFire (h d : Nat)
  | bbCtl | bbStat | bbPumpmv | bbTemp (n : Nat) | bbCal (n : Nat)
  | jtCtl (k : Nat) | jtStore (k : Nat)
  deriving DecidableEq, Repr

/-- A 64-bit register. -/
def Reg.wide : Reg → Bool
  | .pool | .feedcap | .time | .asbase | .tlbinv | .elbase | .incfg _ | .egcfg _ | .link _ | .fqbase _ | .stray _
  | .qmDeliv _ _ | .qmRetn _ _ | .qmFire _ _ | .jtStore _ => true
  | _ => false

/-- A register that a task without privilege may read (R470, column T). -/
def Reg.taskReadable : Reg → Bool
  | .id | .node | .pool | .time | .stray _ | .qmTarget _ _ | .qmStat _ _ | .qmDeliv _ _ | .qmRetn _ _ | .qmFire _ _
  | .bbPumpmv | .bbTemp _ | .bbCal _ => true
  | _ => false

/-- The registers of a tower's scheduler and fault queue. -/
def towerReg (k : Nat) : Nat → Option Reg
  | 0x00 => some (.sched k)
  | 0x08 => some (.fqbase k)
  | 0x10 => some (.fqctl k)
  | 0x14 => some (.fqhead k)
  | 0x18 => some (.fqtail k)
  | _ => none

/-- The registers of a domain. -/
def domainReg (h d : Nat) : Nat → Option Reg
  | 0x00 => some (.qmCtl h d)
  | 0x04 => some (.qmTarget h d)
  | 0x08 => some (.qmStat h d)
  | 0x10 => some (.qmDeliv h d)
  | 0x18 => some (.qmRetn h d)
  | 0x20 => some (.qmFire h d)
  | _ => none

/-- The package's own registers. -/
def packageReg : Nat → Option Reg
  | 0x00 => some .id
  | 0x04 => some .node
  | 0x08 => some .ctl
  | 0x0C => some .rstcause
  | 0x10 => some .pool
  | 0x18 => some .feedcap
  | 0x20 => some .time
  | 0x28 => some .asbase
  | 0x30 => some .tlbinv
  | 0x40 => some .elbase
  | 0x48 => some .elctl
  | 0x4C => some .elhead
  | 0x50 => some .eltail
  | _ => none

/-- The register that begins at an offset. -/
def regAt (off : Nat) : Option Reg :=
  if off < 0x100 then packageReg off
  else if off < 0x180 then (if off % 8 = 0 then some (.incfg ((off - 0x100) / 8)) else none)
  else if off < 0x200 then (if off % 8 = 0 then some (.egcfg ((off - 0x180) / 8)) else none)
  else if off < 0x290 then (if off % 8 = 0 then some (.link ((off - 0x200) / 8)) else none)
  else if 0x10000 ≤ off ∧ off < 0x50000 then towerReg ((off - 0x10000) / 0x10000) (off % 0x10000)
  else if 0x100000 ≤ off ∧ off < 0x140000 then
    (match off % 0x1000 with
     | 0x00 => some (.quiet ((off - 0x100000) / 0x1000))
     | 0x08 => some (.stray ((off - 0x100000) / 0x1000))
     | _ => none)
  else if 0x200000 ≤ off ∧ off < 0x240000 then
    (if off % 0x1000 / 0x100 < 5 then domainReg ((off - 0x200000) / 0x1000) (off % 0x1000 / 0x100) (off % 0x100) else none)
  else if off = 0x300000 then some .bbCtl
  else if off = 0x300004 then some .bbStat
  else if off = 0x300008 then some .bbPumpmv
  else if 0x300100 ≤ off ∧ off < 0x300300 then (if off % 4 = 0 then some (.bbTemp ((off - 0x300100) / 4)) else none)
  else if 0x300300 ≤ off ∧ off < 0x300500 then (if off % 4 = 0 then some (.bbCal ((off - 0x300300) / 4)) else none)
  else if 0x400000 ≤ off ∧ off < 0x400400 then
    (match off % 0x100 with
     | 0x00 => some (.jtCtl ((off - 0x400000) / 0x100))
     | 0x08 => some (.jtStore ((off - 0x400000) / 0x100))
     | _ => none)
  else none

/-- The register that holds the word at an offset, and whether it is the register's high word. -/
def regOf (off : Nat) : Option (Reg × Bool) :=
  match regAt off with
  | some r => some (r, false)
  | none => if off < 4 then none else match regAt (off - 4) with
    | some r => if r.wide then some (r, true) else none
    | none => none

/-! ### What a register reads -/

/-- A ring's control register (R342, R485). -/
def Ring.ctl (r : Ring) : Word := r.lost ++ (0 : BitVec 11) ++ r.logn

def MeterState.code : MeterState → BitVec 3
  | .idle => 0
  | .fill => 1
  | .feed => 2
  | .drain => 3
  | .stop => 4
  | .held => 5

/-- The meter's state register (R380). R360 gives the states of a meter in store mode; the state it shows for a
task in schedule mode is a free value. -/
def State.qmStat (s : State) (h d : Nat) : Word × State :=
  let x := s.domain h d
  match s.storeMv h d with
  | (mv, s1) =>
    let n : BitVec 9 := if x.schedule || x.st == .idle then 0 else BitVec.ofNat 9 (x.nseg - 1)
    let st := if x.schedule && x.st != .idle then Config.scheduleState s1.fresh else x.st.code
    (st ++ n ++ mv ++ BitVec.ofNat 10 x.ceil, s1.freshen)

/-- The link port register (R482). -/
def Link.reg (l : Link) : BitVec 64 := l.retry ++ l.downs ++ l.peer ++ l.st

def low (w : Word) : BitVec 64 := w.zeroExtend 64

/-- The value of a register. -/
def State.readReg (s : State) (r : Reg) : BitVec 64 × State :=
  match r with
  | .id => (low (0x4C40B000 ||| Word.ofBool s.verif), s)
  | .node => (s.node.zeroExtend 64, s)
  | .ctl => (low (Word.ofBool s.run), s)
  | .rstcause => (s.rstcause.zeroExtend 64, s)
  | .pool => (s.pool, s)
  | .feedcap => (s.thrw ++ s.feedcap.zeroExtend 32, s)
  | .time => (s.time, s)
  | .asbase => (s.asbase.zeroExtend 64 <<< 19, s)
  | .tlbinv => (s.tlbAsid ++ s.tlbVa ++ (0 : BitVec 4) ++ s.tlbMode ++ BitVec.ofBool s.tlbBusy, s)
  | .elbase => (s.el.base, s)
  | .elctl => (low s.el.ctl, s)
  | .elhead => (low s.el.head, s)
  | .eltail => (low s.el.tail, s)
  | .incfg n => (s.incfg.getD n 0, s)
  | .egcfg n => (s.egcfg.getD n 0, s)
  | .link p => ((s.links[p]?.map Link.reg).getD 0, s)
  | .sched k =>
    let t := s.tower k
    (low (t.ageu ++ t.pwaitu ++ t.holdu ++ (0 : BitVec 7) ++ BitVec.ofBool t.pren), s)
  | .fqbase k => ((s.tower k).fq.base, s)
  | .fqctl k => (low (s.tower k).fq.ctl, s)
  | .fqhead k => (low (s.tower k).fq.head, s)
  | .fqtail k => (low (s.tower k).fq.tail, s)
  | .quiet h => (low (s.hoop h).quiet, s)
  | .stray h => ((s.hoop h).stray, s)
  | .qmCtl h d =>
    let x := s.domain h d
    (low ((0 : BitVec 30) ++ BitVec.ofBool x.pin ++ BitVec.ofBool x.mode), s)
  | .qmTarget h d =>
    let x := s.domain h d
    (low (BitVec.ofBool x.pend ++ (0 : BitVec 5) ++ x.cur ++ (0 : BitVec 6) ++ x.mv), s)
  | .qmStat h d => match s.qmStat h d with
    | (w, s1) => (low w, s1)
  | .qmDeliv h d => ((s.domain h d).deliv, s)
  | .qmRetn h d => ((s.domain h d).retn, s)
  | .qmFire h d => ((s.domain h d).fire, s)
  | .bbCtl =>
    let b := s.bobbin
    (low (BitVec.ofBool b.en ++ BitVec.ofBool b.policy ++ (0 : BitVec 10) ++ b.tjt ++ b.capw), s)
  | .bbStat =>
    let b := s.bobbin
    (low (BitVec.ofBool b.wdog ++ BitVec.ofBool b.trip ++ BitVec.ofBool b.tbnd ++ BitVec.ofBool b.pbnd ++ b.pwr ++ b.beat), s)
  | .bbPumpmv => (s.bobbin.pumpmv.zeroExtend 64, s)
  | .bbTemp n =>
    let t := s.sensors.getD n ⟨false, 0, 0⟩
    (low (BitVec.ofBool t.val ++ (0 : BitVec 7) ++ t.code ++ t.t16), s)
  | .bbCal n => (low ((0 : BitVec 8) ++ Config.calC100 n ++ Config.calC30 n), s)
  | .jtCtl k =>
    let e := (s.tower k).join
    (low (e.asid ++ e.logl ++ (0 : BitVec 11) ++ BitVec.ofBool e.en), s)
  | .jtStore k => ((s.tower k).join.base, s)

/-- The word at an offset. An offset that is not listed reads as zero. -/
def State.readRegWord (s : State) (off : Nat) : Word × State :=
  match regOf (off - off % 4) with
  | none => (0, s)
  | some (r, hi) => match s.readReg r with
    | (v, s1) => (if hi then v.extractLsb' 32 32 else v.extractLsb' 0 32, s1)

/-! ### What a write does -/

/-- The bits that a write reaches, and their values, in its register. -/
def regMask (w : RegWrite) (hi : Bool) : BitVec 64 :=
  if w.wide then 0xFFFFFFFFFFFFFFFF else if hi then 0xFFFFFFFF00000000 else 0xFFFFFFFF
def regVal (w : RegWrite) (hi : Bool) : BitVec 64 :=
  if w.wide then w.data else if hi then w.data <<< 32 else w.data &&& 0xFFFFFFFF

/-- A read-write field takes the written bits (R4). -/
def writeBits (old val mask : BitVec 64) : BitVec 64 := (old &&& ~~~mask) ||| (val &&& mask)

/-- A field that a written 1 clears (R4). -/
def clearBits (old val mask : BitVec 64) : BitVec 64 := old &&& ~~~(val &&& mask)

/-- PK_POOL (R353): the write replaces the count. -/
def State.writePool (s : State) (val mask : BitVec 64) : State := { s with pool := writeBits s.pool val mask }

/-- QM_CTL (R361): the mode takes effect at the domain's next levelling. -/
def State.writeQmCtl (s : State) (h d : Nat) (val mask : BitVec 64) : State :=
  s.withDomain h d fun x =>
    let v := writeBits (low ((0 : BitVec 30) ++ BitVec.ofBool x.pin ++ BitVec.ofBool x.mode)) val mask
    { x with pin := v.getLsbD 1, mode := v.getLsbD 0 }

/-- A target between 550 and 1,000 mV (R379). -/
def clampTarget (v : BitVec 10) : BitVec 10 := if v.toNat < 550 then 550 else if 1000 < v.toNat then 1000 else v

/-- Begin a move to the target in a domain's mailbox. The store of a rising domain may stand as high as what its pump
brings. -/
def State.startMove (s : State) (h d : Nat) : State :=
  let x := s.domain h d
  if x.mv = x.cur then s.withDomain h d fun x => { x with pend := false }
  else
    let rises := !x.schedule && decide (x.cur.toNat < x.mv.toNat)
    (s.withDomain h d fun x => { x with
      pend := false, moving := some x.mv
      fed := if rises then strokesOf x.nseg x.top else x.fed
      vmv := if rises then x.mv else x.vmv }).push (.targetMoveComplete h d)

/-- The target mailbox takes a value (R379). -/
def State.setTarget (s : State) (h d : Nat) (mv : BitVec 10) : State :=
  let s1 := s.withDomain h d fun x => { x with mv := clampTarget mv }
  let x := s1.domain h d
  if x.moving.isSome then s1.withDomain h d fun x => { x with pend := true }
  else match x.st with
    | .idle => s1.withDomain h d fun x => { x with cur := x.mv, pend := false }
    | .feed => s1.startMove h d
    | .fill | .drain | .stop | .held => s1.withDomain h d fun x => { x with pend := decide (x.mv ≠ x.cur) }

/-- QM_TARGET (R361, R379, R459): the bobbin's write is ignored on a pinned domain and in the tick of a system
agent's write. -/
def State.writeQmTarget (s : State) (h d : Nat) (val mask : BitVec 64) (bobbin : Bool) : State :=
  let x := s.domain h d
  if bobbin && (x.pin || x.agentTick == some s.time) then s
  else
    let s1 := if bobbin then s else s.withDomain h d fun x => { x with agentTick := some s.time }
    s1.setTarget h d ((writeBits (x.mv.zeroExtend 64) val mask).extractLsb' 0 10)

/-- HC_QUIET (R218). -/
def State.writeQuiet (s : State) (h : Nat) (val mask : BitVec 64) : State :=
  s.withHoop h fun x =>
    let v := (writeBits (low x.quiet) val mask).extractLsb' 0 32
    { x with quiet := if v.toNat < 1000 then 1000 else v }

/-- PK_TLBINV (R478): a write of the low word starts an invalidation. `none` says that BUSY is set and the write
waits. -/
def State.writeTlbinv (s : State) (val mask : BitVec 64) : Option State :=
  if s.tlbBusy then none
  else
    let v := writeBits (s.readReg .tlbinv).1 val mask
    let s1 := { s with tlbAsid := v.extractLsb' 48 16, tlbVa := v.extractLsb' 7 41, tlbMode := v.extractLsb' 1 2 }
    some (if mask.getLsbD 0 then { s1 with tlbBusy := true }.push .tlbInvalidateDone else s1)

/-- Bring-up is complete: RUN is set, and memory is trained (R472 step 6). The schedulers then scan. -/
def State.bringUpDone (s : State) : State :=
  if s.run && s.bringUp == .trained then
    { s with bringUp := .running }.pushAll ((List.range 4).map fun k => .schedulerScan k)
  else s

/-- PK_CTL.RUN (R471, R472): it stays set until a reset. -/
def State.writeRun (s : State) (val mask : BitVec 64) : State :=
  if (val &&& mask).getLsbD 0 && !s.run then { s with run := true }.bringUpDone else s

/-- PK_NODE (R471). -/
def State.writeNode (s : State) (val mask : BitVec 64) : State :=
  if s.run then s else { s with node := (writeBits (s.node.zeroExtend 64) val mask).extractLsb' 0 14 }

/-- JT_CTL (R435). -/
def State.writeJtCtl (s : State) (k : Nat) (val mask : BitVec 64) : State :=
  let e := (s.tower k).join
  let v := writeBits (s.readReg (.jtCtl k)).1 val mask
  let en := v.getLsbD 0
  if e.en then (if en then s else s.disableJoin k)
  else
    let logl : BitVec 4 := v.extractLsb' 12 4
    s.withJoin k fun e => { e with
      asid := v.extractLsb' 16 16
      logl := if 4 ≤ logl.toNat ∧ logl.toNat ≤ 12 then logl else 12
      en := en
      configured := if en then false else e.configured }

/-- A ring's control register: the count is cleared by ones, and LOGN is 4 to 16. -/
def Ring.write (r : Ring) (val mask : BitVec 64) : Ring :=
  let logn := (writeBits (low r.ctl) val mask).extractLsb' 0 5
  { r with
    lost := (clearBits (low r.ctl) val mask).extractLsb' 16 16
    logn := if 4 ≤ logn.toNat ∧ logn.toNat ≤ 16 then logn else 4 }

/-- PK_INCFGn (R427): a MODE of 3 is stored as 0. -/
def ingressValue (v : BitVec 64) : BitVec 64 :=
  let w := v &&& 0xFFFFFFFFFFFFFFC0
  if w.extractLsb' 48 2 = (3 : BitVec 2) then w &&& 0xFFFCFFFFFFFFFFFF else w

/-- BB_CTL (R464). -/
def Bobbin.writeCtl (b : Bobbin) (v : BitVec 64) : Bobbin :=
  let tjt : BitVec 8 := v.extractLsb' 12 8
  { b with
    en := v.getLsbD 31
    policy := v.getLsbD 30
    tjt := if 60 ≤ tjt.toNat ∧ tjt.toNat ≤ 100 then tjt else 95
    capw := v.extractLsb' 0 12 }

/-- A write to any register (R4, R470). `none` says that the write waits. Read-only fields ignore it. -/
def State.writeReg (s : State) (r : Reg) (val mask : BitVec 64) (bobbin : Bool) : Option State :=
  let v := writeBits (s.readReg r).1 val mask
  match r with
  | .pool => some (s.writePool val mask)
  | .node => some (s.writeNode val mask)
  | .ctl => some (s.writeRun val mask)
  | .tlbinv => s.writeTlbinv val mask
  | .quiet h => some (s.writeQuiet h val mask)
  | .qmCtl h d => some (s.writeQmCtl h d val mask)
  | .qmTarget h d => some (s.writeQmTarget h d val mask bobbin)
  | .jtCtl k => some (s.writeJtCtl k val mask)
  | .jtStore k => some (if (s.tower k).join.en then s else s.withJoin k fun e => { e with base := v })
  | .feedcap => some { s with
      feedcap := v.extractLsb' 0 12
      thrw := (clearBits (s.thrw ++ (0 : BitVec 32)) val mask).extractLsb' 32 32 }
  | .asbase => some { s with asbase := v.extractLsb' 19 30 }
  | .elbase => some { s with el := { s.el with base := v } }
  | .elctl => some { s with el := s.el.write val mask }
  | .elhead => some { s with el := { s.el with head := v.extractLsb' 0 32 } }
  | .incfg n => some { s with incfg := s.incfg.set n (ingressValue v) }
  | .egcfg n => some { s with egcfg := s.egcfg.set n (v &&& 0xFFFEFFFFFFFFFFC0) }
  | .link p => some { s with links := s.links.modify p fun l =>
      let c := clearBits l.reg val mask
      { l with retry := c.extractLsb' 32 32, downs := c.extractLsb' 16 16 } }
  | .sched k => some (s.withTower k fun t => { t with
      ageu := v.extractLsb' 24 8, pwaitu := v.extractLsb' 16 8, holdu := v.extractLsb' 8 8, pren := v.getLsbD 0 })
  | .fqbase k => some (s.withTower k fun t => { t with fq := { t.fq with base := v } })
  | .fqctl k => some (s.withTower k fun t => { t with fq := t.fq.write val mask })
  | .fqhead k => some (s.withTower k fun t => { t with fq := { t.fq with head := v.extractLsb' 0 32 } })
  | .bbCtl => some { s with bobbin := s.bobbin.writeCtl v }
  | .bbStat => some { s with bobbin := { s.bobbin with wdog := s.bobbin.wdog && !(val &&& mask).getLsbD 31 } }
  | .id | .rstcause | .time | .eltail | .fqtail _ | .stray _ | .qmStat _ _ | .qmDeliv _ _ | .qmRetn _ _ | .qmFire _ _
  | .bbPumpmv | .bbTemp _ | .bbCal _ => some s

/-- A write at an offset. An offset that is not listed ignores it. Both words of two 32-bit registers may move at
once. -/
def State.writeRegWord (s : State) (w : RegWrite) : Option State :=
  match regOf w.off with
  | none => some s
  | some (r, hi) =>
    if w.wide && !r.wide then
      match s.writeReg r (w.data &&& 0xFFFFFFFF) 0xFFFFFFFF w.bobbin with
      | none => none
      | some s1 => match regOf (w.off + 4) with
        | some (q, h) => s1.writeReg q (regVal ⟨w.off + 4, false, w.data >>> 32, w.bobbin⟩ h) (regMask ⟨w.off + 4, false, 0, w.bobbin⟩ h) w.bobbin
        | none => some s1
    else s.writeReg r (regVal w hi) (regMask w hi) w.bobbin

/-! ### The writes as events -/

/-- PK_POOL_WRITE (R353). -/
def execPkPoolWrite (w : RegWrite) (s : State) : Result :=
  .next <| match regOf w.off with
    | some (.pool, hi) => s.writePool (regVal w hi) (regMask w hi)
    | _ => s

/-- QM_TARGET_WRITE (R379). -/
def execQmTargetWrite (w : RegWrite) (s : State) : Result :=
  .next <| match regOf w.off with
    | some (.qmTarget h d, hi) => s.writeQmTarget h d (regVal w hi) (regMask w hi) w.bobbin
    | _ => s

/-- QM_CTL_WRITE (R361). -/
def execQmCtlWrite (w : RegWrite) (s : State) : Result :=
  .next <| match regOf w.off with
    | some (.qmCtl h d, hi) => s.writeQmCtl h d (regVal w hi) (regMask w hi)
    | _ => s

/-- HC_QUIET_WRITE (R218). -/
def execHcQuietWrite (w : RegWrite) (s : State) : Result :=
  .next <| match regOf w.off with
    | some (.quiet h, hi) => s.writeQuiet h (regVal w hi) (regMask w hi)
    | _ => s

/-- PK_TLBINV_WRITE (R478). -/
def execPkTlbinvWrite (w : RegWrite) (s : State) : Result :=
  .next <| match regOf w.off with
    | some (.tlbinv, hi) => (s.writeTlbinv (regVal w hi) (regMask w hi)).getD s.block
    | _ => s

/-- TLB_INVALIDATE_DONE (R478): the translations named go, and BUSY clears. -/
def execTlbInvalidateDone (s : State) : Result :=
  .next
    (let va := s.tlbVa.toNat * 2 ^ 16
     let gone := fun (x : Translation) =>
       match s.tlbMode.toNat with
       | 0 => x.asid == s.tlbAsid && x.page == (if x.large then va / 2 ^ 25 else va / 2 ^ 16)
       | 1 => x.asid == s.tlbAsid
       | _ => true
     { s with tlbBusy := false, hoops := s.hoops.map fun h => { h with tlb := h.tlb.filter fun x => !gone x } })

/-- PK_CTL_RUN (R472). -/
def execPkCtlRun (w : RegWrite) (s : State) : Result :=
  .next <| match regOf w.off with
    | some (.ctl, hi) => s.writeRun (regVal w hi) (regMask w hi)
    | _ => s

/-- PK_NODE_WRITE (R471). -/
def execPkNodeWrite (w : RegWrite) (s : State) : Result :=
  .next <| match regOf w.off with
    | some (.node, hi) => s.writeNode (regVal w hi) (regMask w hi)
    | _ => s

/-- JT_CTL_WRITE (R435). -/
def execJtCtlWrite (w : RegWrite) (s : State) : Result :=
  .next <| match regOf w.off with
    | some (.jtCtl k, hi) => s.writeJtCtl k (regVal w hi) (regMask w hi)
    | _ => s

/-- REGISTER_WRITE (R470). -/
def execRegisterWrite (w : RegWrite) (s : State) : Result := .next ((s.writeRegWord w).getD s.block)

end Sys2Proof.Machine
end

