-- ==== Sys2Proof/Machine/Meter.lean ====
section
/-!
DEFINITION. The meters (R351 to R367, R373 to R381): levelling and filling, the account, top-ups, leave, the
settlement of a task that leaves, and their instructions and events.
-/

namespace Sys2Proof.Machine

/-! ### Segments (R351, R356) -/

def segmentsOf (dom : Nat) : Nat := if dom = 4 then 512 else 256

/-- The needed count of R356 step 2. -/
def neededSegments (dom px vf : Nat) : Nat :=
  Nat.max 1 (Nat.min (segmentsOf dom) ((512 * 2 ^ px + (segmentCharge 1 vf - 1)) / segmentCharge 1 vf))

/-- The largest count that an account fills to the fill voltage, up to the needed one (R356 step 3). -/
def fillableSegments (dom px vf account : Nat) : Nat :=
  Nat.min (neededSegments dom px vf) (account * 256 / segmentCharge 1 vf)

/-- The task that holds a domain of a hoop. -/
def Task.holds (t : Task) (h d : Nat) : Bool := t.hoop == h && t.phase != .saved && t.domains.contains d
def State.holder (s : State) (h d : Nat) : Option Task := s.tasks.find? fun t => t.holds h d

/-- The strokes alone that the pumps have delivered in this window carry the energy of the cap: 64 pC each, from a rail of
1.00 V or more (R456, R462). -/
def State.feedsCap (s : State) : Bool := s.feedcap != 0 && decide (s.feedcap.toNat * 10 ^ 7 ≤ 64 * s.windowFeed)

/-- A pump takes strokes from the account for a domain (R354). -/
def State.deliver (s : State) (id h dom n : Nat) : State :=
  let s1 := (s.withTask id fun t => { t with account := t.account - n, delivered := t.delivered + n }).withDomain h dom fun x =>
    { x with deliv := x.deliv + BitVec.ofNat 64 n, fed := x.fed + n }
  let s2 := { s1 with windowFeed := s1.windowFeed + n }
  if s2.feedsCap && !s.feedsCap then s2.push .feedcapReached else s2

/-- The pump of a domain stops, and its store drains. -/
def Domain.drained (x : Domain) : Domain := { x with st := .drain, low := 420 }

/-- When the account is empty, every pump of the task stops (R358). -/
def State.stopPumps (s : State) (id : Nat) : State :=
  match s.task? id with
  | none => s
  | some t =>
    if t.account != 0 then s
    else t.domains.foldl (fun s d => s.withDomain t.hoop d fun x => if x.st = .feed then x.drained else x) s

/-! ### Levelling and fill (R356, R357, R361, R362) -/

/-- The account in the unit of a mode: strokes in store mode, account units in schedule mode (R354). -/
def Task.accountIn (t : Task) (schedule : Bool) : Task :=
  if t.schedule = schedule then t
  else if schedule then { t with account := t.account * 4096, delivered := t.delivered * 4096, schedule := true }
  else { t with account := t.account / 4096, delivered := t.delivered / 4096, schedule := false }

/-- A task that is refused at levelling, or that cannot fill (R357). -/
def State.refuseFill (s : State) (id : Nat) : State :=
  match s.task? id with
  | none => s
  | some t =>
    let d0 : Word := (7#3) ++ BitVec.ofBool t.schedule ++ (0 : BitVec 28)
    s.raise id
      (.plain F_SHORT d0 0xFFFFFFFF (BitVec.ofNat 32 t.marks) (BitVec.ofNat 32 (Nat.min t.packets 0xFFFFFFFF)))

/-- Level one domain and start its fill (R356): from the floor to the fill voltage, or as far as the whole account goes. -/
def State.levelDomain (s : State) (t : Task) (dom : Nat) : State :=
  let vf := s.domain t.hoop dom |>.cur
  let n := fillableSegments dom t.tcb.px vf.toNat t.account
  if n = 0 ∧ t.account * 256 < 375 * 80 then s.refuseFill t.id
  else
    let part := n = 0
    (s.withDomain t.hoop dom fun x => { x with
      st := .fill, nseg := Nat.max 1 n, schedule := false, kept := false, ran := true, low := 420, fed := 0
      vmv := if part then BitVec.ofNat 10 (voltsOf 1 t.account) else vf
      owed := if part then t.account else strokesOf n vf.toNat }).push (.fillComplete t.id dom)

/-- Every domain of the task is levelled: the front end checks its blocks (R322 step 4). -/
def State.levelled (s : State) (id : Nat) : State :=
  (s.withTask id fun t => { t with phase := .checking }).push (.placementCheck id)

/-- A domain takes the target in its mailbox when it levels (R379), or, for a saved task, the fill voltage that was saved
with it (R381); the target then stays pending. -/
def State.takeTarget (s : State) (h d : Nat) (saved : Option (BitVec 10)) : State :=
  s.withDomain h d fun x =>
    let v := saved.getD x.mv
    { x with cur := v, pend := decide (x.mv ≠ v), moving := none }

/-- The fill voltage that a saved task had in a domain. -/
def Task.savedFill (t : Task) (d : Nat) : Option (BitVec 10) := t.saved.bind fun v => v.fill[t.domains.idxOf d]?

/-- A domain runs from the rail (R362). -/
def State.levelSchedule (s : State) (t : Task) (d : Nat) : State :=
  let s1 := s.takeTarget t.hoop d (t.savedFill d)
  let rail := s1.railGoal t.hoop d
  s1.withDomain t.hoop d fun x => { x with st := .feed, nseg := 0, schedule := true, kept := false, ran := true, rail := rail }

/-- METER_LEVEL (R356, R357, R361): the next domain of the task in order is levelled. The modes are those in force as the
first one is. -/
def execMeterLevel (task : Nat) (s : State) : Result :=
  .next <|
    match s.task? task with
    | none => s
    | some t =>
      if t.phase != .levelling then s
      else
        let first := t.domains.all fun d => (s.domain t.hoop d).st == .idle
        let modes := t.domains.map fun d => (s.domain t.hoop d).mode
        if first && modes.eraseDups.length != 1 then s.raise task (.plain F_ILL (illDetail 0x02 false 0 0x1FF) 0 0 0)
        else if (if first then modes.headD false else t.schedule) then
          (t.domains.foldl (fun s d => s.levelSchedule t d) (s.withTask task fun t => t.accountIn true)).levelled task
        else
          let s1 := s.withTask task fun t => t.accountIn false
          match t.domains.find? fun d => (s.domain t.hoop d).st == .idle with
          | none => s1.levelled task
          | some d =>
            match s1.task? task with
            | none => s1
            | some t1 => (s1.takeTarget t.hoop d (t.savedFill d)).levelDomain t1 d

/-- A fill ends: the store stands at its voltage, or the account is empty and it drains (R360). A target that is pending
then starts its move. -/
def State.endFill (s : State) (t : Task) (dom : Nat) : State :=
  let n := Nat.min (s.domain t.hoop dom).owed t.account
  let s1 := s.deliver t.id t.hoop dom n
  if t.account ≤ n then (s1.withDomain t.hoop dom fun x => { x.drained with owed := 0 }).stopPumps t.id
  else
    let s2 := s1.withDomain t.hoop dom fun x => { x with st := .feed, owed := 0, low := x.vmv }
    if (s2.domain t.hoop dom).pend then s2.startMove t.hoop dom else s2

/-- FILL_COMPLETE (R360): the strokes of the fill have come, and the next domain levels. Stalled pumps bring none (R456). -/
def execFillComplete (task dom : Nat) (s : State) : Result :=
  .next <|
    match s.task? task with
    | none => s
    | some t =>
      if t.phase != .levelling || (s.domain t.hoop dom).st != .fill then s
      else if s.pumpsStalled then s.block
      else (s.endFill t dom).push (.meterLevel task)

/-! ### Feed and floor (R358, R359) -/

/-- The voltage of a store after its pump has fed it: at its hold, or on its way there. -/
def Domain.afterFeed (x : Domain) (hold : Nat) (reached : Bool) : Domain :=
  let y := { x with vmv := BitVec.ofNat 10 hold }
  if reached then { y with low := BitVec.ofNat 10 y.top } else y

/-- A feeding pump delivers strokes. A fall of the target stops it until the store has drained to it (R379). -/
def State.feed (s : State) (t : Task) (dom n : Nat) : State :=
  let x := s.domain t.hoop dom
  let hold := s.holdMv t.hoop dom
  if x.moving.any fun g => decide (g.toNat < x.cur.toNat) then s
  else
    let s1 := s.deliver t.id t.hoop dom (Nat.min n t.account)
    let s2 := if hold ≤ x.low.toNat then s1.withDomain t.hoop dom fun y => y.afterFeed hold true
      else match s1.pick 2 with
        | (k, s2) => s2.withDomain t.hoop dom fun y => y.afterFeed hold (k == 0)
    s2.stopPumps t.id

/-- PUMP_FEED (R358): the pump feeds strokes while the account lasts, unless every pump stalls (R456); a filling one, strokes
of its fill. Of a domain without a task it holds the floor, and debits no task (R353, R467). -/
def execPumpFeed (hoop dom strokes : Nat) (s : State) : Result :=
  .next <|
    let x := s.domain hoop dom
    if s.pumpsStalled then s
    else match s.holder hoop dom with
      | none =>
        if (s.bringUp == .trained || s.up) && x.st == .idle then
          s.withDomain hoop dom fun x => { x with deliv := x.deliv + BitVec.ofNat 64 strokes }
        else s
      | some t =>
        if x.schedule then s
        else match x.st with
          | .feed => s.feed t dom strokes
          | .fill =>
            let n := Nat.min strokes (Nat.min x.owed t.account)
            (s.deliver t.id hoop dom n).withDomain hoop dom fun x => { x with owed := x.owed - n }
          | _ => s

/-- FLOOR_STOP (R359, R456): a domain whose pump does not feed reaches the floor. -/
def execFloorStop (hoop dom : Nat) (s : State) : Result :=
  .next <|
    match s.holder hoop dom with
    | none => s
    | some t =>
      let x := s.domain hoop dom
      if x.schedule || !(x.st == .drain || ((x.st == .feed || x.st == .fill) && s.pumpsStalled)) then s
      else
        let s1 := s.withDomain hoop dom fun x => { x with st := .stop, vmv := 420, low := 420 }
        if t.ended then s1 else s1.stopShort t.id dom none

/-! ### Settlement (R353, R355, R343, R381) -/

/-- The whole strokes above the floor in a domain's connected segments. For a store that is held they are those held at
the freeze. -/
def State.storeStrokes (s : State) (h d : Nat) : Nat × State :=
  let x := s.domain h d
  if x.schedule then (0, s)
  else match s.storeMv h d with
    | (mv, s1) => (segmentCharge x.nseg mv.toNat / 256, s1)

/-- A domain without a task: its store is at the floor, and a target takes effect at once (R353, R379). -/
def Domain.idled (x : Domain) : Domain :=
  { x with
    st := .idle, nseg := 0, vmv := 420, low := 420, fed := 0, owed := 0, kept := false, cur := x.mv, pend := false, moving := none
    leaves := [], committed := 0 }

/-- A domain's charge is returned: to the pool, or under a save to the task's account; the domain is idle, or kept
by the pool at 0.45 V (R343, R355, R360, R381). -/
def State.settleDomain (s : State) (id h : Nat) (toPool keep : Bool) (d : Nat) : State :=
  match s.storeStrokes h d with
  | (q, s1) =>
    let s2 := s1.withDomain h d fun x =>
      let y := if keep then { x with st := if x.schedule then x.st else .held, kept := true } else x.idled
      { y with retn := if toPool then y.retn + BitVec.ofNat 64 q else y.retn }
    if toPool then ({ s2 with pool := s2.pool + BitVec.ofNat 64 q }).withTask id fun t => { t with returned := t.returned + q }
    else s2.withTask id fun t => { t with account := t.account + q, delivered := t.delivered - q }

/-- Every domain of a task is settled. -/
def State.settle (s : State) (id : Nat) (toPool keep : Bool) : State :=
  match s.task? id with
  | none => s
  | some t => t.domains.foldl (fun s d => s.settleDomain id t.hoop toPool keep d) s

/-- USED and UNUSED (R355): a task refused before its fill has used nothing. -/
def Task.used (t : Task) : Nat :=
  let refused := match t.cause with
    | some c => c.code == F_SHORT && c.d0.extractLsb' 29 3 == 7#3
    | none => false
  if refused then 0
  else
    let unit := if t.schedule then 4096 * 2 ^ t.tcb.px else 2 ^ t.tcb.px
    let net := if t.schedule then t.delivered else t.delivered - t.returned
    (net + unit - 1) / unit
def Task.unused (t : Task) : Nat := t.packets - t.used

/-! ### X-form sets (R328, R368) -/

/-- The words of an X-form set in ascending order: each is one operation, which `start` begins. A NULL word performs
nothing and emits NULL to both targets. -/
def State.sysWords (i : Instr) (start : Nat → Nat → State → State) (g : Firing) (op : Nat) (s : State) (j : Nat) : Nat → State
  | 0 => s
  | n + 1 =>
    if !s.runs g.task then s
    else if performs i g j then
      match s.fireWord g i.spec.cost i.spec.passes with
      | .error s1 => s1
      | .ok s1 => (start op j s1).sysWords i start g op (j + 1) n
    else match nullStep g s with
      | .error s1 => s1
      | .ok (s1, _) => (s1.finishWord g.task op j [.null, .null]).sysWords i start g op (j + 1) n

/-- An X-form set begins. -/
def sysFiring (i : Instr) (start : Nat → Nat → State → State) (g : Firing) (s : State) : State :=
  match s.beginOp i g (List.replicate g.n ⟨.waiting, 0, [], [], 0, [], 0, false, 0⟩) with
  | (op, s1) => s1.sysWords i start g op 0 g.n

/-- An at-once word waits for its window base (R257). -/
def State.startAtOnce (id : Nat) (op j : Nat) (s : State) : State :=
  (s.withOpWord id op j fun w => { w with stage := .ready }).push (.atOnceRelease id op j)

/-- The operand of a port as a result. -/
def passWord (i : Instr) (g : Firing) (port j : Nat) : Out := operand i g port j

/-! ### Top-ups (R369, R370, R375) -/

/-- The top-up allowance left. -/
def Task.allowLeft (t : Task) : Nat := t.allow - t.granted

/-- TOPUP (R369): the request leaves for the pool. -/
def execTopup (f : XForm) (s : State) : Result :=
  withFiring s fun g s => sysFiring (.topup f) (fun op j s =>
    (s.withOpWord g.task op j fun w => { w with stage := .sent }).push (.topupPoolServe g.task op j)) g s

/-- TOPUP_POOL_SERVE (R369). -/
def execTopupPoolServe (task op j : Nat) (s : State) : Result :=
  .next (s.onWord task op j .sent fun t o =>
    let g := Nat.min (operand o.instr o.firing 0 j).word.toNat (Nat.min t.allowLeft (s.pool.toNat / 2 ^ t.tcb.px))
    (({ s with pool := s.pool - BitVec.ofNat 64 (g * 2 ^ t.tcb.px) }).withTask task fun t => { t with granted := t.granted + g }).push
      (.topupApply task op j g))

/-- The pump of a draining store feeds it again: it rises from where it stands toward its fill voltage. -/
def Domain.resumed (x : Domain) : Domain := { x with st := .feed, fed := strokesOf x.nseg x.top, vmv := x.cur }

/-- A grant is added to the account, and a draining domain feeds again (R360, R370). -/
def State.applyGrant (s : State) (t : Task) (g : Nat) : State :=
  let strokes := g * 2 ^ t.tcb.px
  let s1 := s.withTask t.id fun t => { t with
    account := t.account + (if t.schedule then strokes * 4096 else strokes), packets := t.packets + g }
  if g = 0 then s1
  else t.domains.foldl (fun s d => s.withDomain t.hoop d fun x => if x.st = .drain then x.resumed else x) s1

/-- TOPUP_APPLY (R370): a reply that comes after the task ended with F_SHORT is credited back and emits nothing. -/
def execTopupApply (task op j granted : Nat) (s : State) : Result :=
  .next (s.onWord task op j .sent fun t _ =>
    let short := match t.cause with
      | some c => c.code == F_SHORT
      | none => false
    if short then
      (({ s with pool := s.pool + BitVec.ofNat 64 (granted * 2 ^ t.tcb.px) }).withOpWord task op j fun w =>
        { w with dropped := true }).finishWord task op j []
    else (s.applyGrant t granted).finishWord task op j [.data 0 (BitVec.ofNat 32 granted)])

/-- A target word of KIND 0 (R334): the hoop and quadrant it names. -/
def quadTarget (w : Word) : Option (Nat × Nat) :=
  if bits w 31 30 = 0 ∧ bitsZero w 29 14 ∧ bitsZero w 7 2 then some (bits w 13 8, bits w 1 0) else none

/-- The task that holds a quadrant (R375). -/
def State.quadHolder (s : State) (q : Nat × Nat) : Option Task :=
  s.tasks.find? fun t => t.hoop == q.1 && t.phase != .saved && t.quads.contains q.2

/-- GRANT at the meter (R375): the new allowance left and the state. -/
def State.grant (s : State) (target amount : Word) : Word × State :=
  match (quadTarget target).bind s.quadHolder with
  | none => (0xFFFFFFFF, s)
  | some t =>
    let allow := Nat.min (t.allow + amount.toNat) 0xFFFFFFFF
    (BitVec.ofNat 32 (allow - t.granted), s.withTask t.id fun t => { t with allow := allow })

/-! ### Metering and leave instructions (R372 to R374) -/

/-- The physical domain that a DOM field names, if the task has it. -/
def Task.domainNamed (t : Task) (dom : Nat) : Option Nat :=
  if dom = 4 then (if t.tcb.mtx then some 4 else none) else t.quads[dom]?

def saturate32 (v : Nat) : Word := BitVec.ofNat 32 (Nat.min v 0xFFFFFFFF)

/-- A quantity of METER (R374). -/
def State.meterValue (s : State) (t : Task) (sel : Word) : Word × State :=
  if !meterSelOk sel then (0xFFFFFFFF, s)
  else if meterDom sel = 7 then
    let unit := if t.schedule then 4096 else 1
    (match meterSel sel with
     | 0 => saturate32 (t.account / (unit * 2 ^ t.tcb.px))
     | 1 => saturate32 t.packets
     | 2 => saturate32 t.allowLeft
     | 3 => saturate32 t.marks
     | _ => BitVec.ofNat 32 t.account, s)
  else match t.domainNamed (meterDom sel) with
    | none => (Config.unstatedMeter s.fresh, s.freshen)
    | some d =>
      let x := s.domain t.hoop d
      match meterSel sel with
      | 8 => match s.storeMv t.hoop d with
        | (mv, s1) => (mv.zeroExtend 32, s1)
      | 9 => (x.cur.zeroExtend 32, s)
      | 10 => (saturate32 x.ceil, s)
      | _ => (saturate32 x.committed, s)

/-- METER (R374). -/
def execMeter (f : XForm) (s : State) : Result :=
  withFiring s fun g s => sysFiring (.meter f) (fun op j s =>
    match s.task? g.task with
    | none => s
    | some t => match s.meterValue t (operand (.meter f) g 0 j).word with
      | (w, s1) => s1.finishWord g.task op j [.data 0 w]) g s

/-- RESUMEV (R372). -/
def execResumev (f : XForm) (s : State) : Result :=
  withFiring s fun g s => sysFiring (.resumev f) (fun op j s =>
    match s.task? g.task with
    | none => s
    | some t => s.finishWord g.task op j [.data 0 t.resumeIn, .data 0 t.tacksIn]) g s

/-- LEAVE (R373): a defective control word, or one that names a domain the task lacks, requests nothing. -/
def execLeave (f : XForm) (s : State) : Result :=
  withFiring s fun g s => sysFiring (.leave f) (fun op j s =>
    match s.task? g.task with
    | none => s
    | some t =>
      let w := (operand (.leave f) g 0 j).word
      match if leaveCtlOk w then t.domainNamed (leaveDom w) else none with
      | none => s.finishWord g.task op j [passWord (.leave f) g 1 j]
      | some d => (s.withOpWord g.task op j fun w => { w with stage := .queued }).askLeave t.hoop d ⟨g.task, op, j, t.tower⟩ (leaveAmt w)) g s

/-- GRANT (R375) and TACK (R371) wait for their window base. -/
def execGrant (f : XForm) (s : State) : Result := withFiring s fun g s => sysFiring (.grant f) (State.startAtOnce g.task) g s
def execTack (f : XForm) (s : State) : Result := withFiring s fun g s => sysFiring (.tack f) (State.startAtOnce g.task) g s

/-! ### The leave ceiling (R377, R378) -/

/-- The stream of a task that waits for leave in the name of an opener's word. -/
def State.askingStream (s : State) (r : Reader) : Bool :=
  match s.task? r.task with
  | some t => t.streams.any fun x => x.op == (r.op, r.j) && x.asked
  | none => false

/-- The operation at the head of a meter's queue starts. LEAVE holds nothing. -/
def State.startLeave (s : State) (h d : Nat) (r : Reader) (step : Nat) : State :=
  let commit := fun (s : State) => s.withDomain h d fun x => { x with committed := x.committed + heldStep d step }
  if s.askingStream r then
    let mine := fun (x : Stream) => x.op == (r.op, r.j) && x.asked
    let go := fun (x : Stream) => { x with asked := false, leave := heldStep d step }
    (commit s).withTask r.task fun t => { t with streams := modifyWhere mine go t.streams }
  else match s.op? r.task r.op with
    | none => s
    | some (t, o) =>
      match o.instr with
      | .leave f => s.finishWord r.task r.op r.j [passWord (.leave f) o.firing 1 r.j]
      | .qsend f => (commit s).blockGranted f r.task t o r.j (heldStep d step)
      | _ => (commit s).withOpWord r.task r.op r.j fun w => { w with stage := .sent, tick := heldStep d step }

/-- What waits for leave still waits: its stream, or its operation's word, is there. -/
def State.leaveWanted (s : State) (r : Reader) : Bool :=
  s.askingStream r || match s.op? r.task r.op with
    | some (_, o) =>
      match o.instr with
      | .sopenRead _ _ | .sopenWrite _ _ | .sindRead _ _ | .sindWrite _ _ => false
      | .copy _ | .gather _ | .scatter _ | .allreduce _ | .allgather _ | .reducescatter _ | .broadcast _ => (o.at r.j).stage != .done
      | _ => (o.at r.j).stage != .done && !(o.at r.j).dropped
    | none => false

/-- LEAVE_CEILING_RAISE (R377): the ceiling rises by one unit toward the need, and the operation at the head
starts when the ceiling reaches it. -/
def execLeaveCeilingRaise (hoop dom : Nat) (s : State) : Result :=
  .next <|
    let x := s.domain hoop dom
    match x.leaves with
    | [] => s
    | (r, step) :: rest =>
      if !s.leaveWanted r then
        let s1 := s.withDomain hoop dom fun x => { x with leaves := rest }
        if rest.isEmpty then s1 else s1.push (.leaveCeilingRaise hoop dom)
      else if x.mayStart dom step then
        let s1 := (s.withDomain hoop dom fun x => { x with leaves := rest, lastStart := s.time.toNat }).startLeave hoop dom r step
        if rest.isEmpty then s1 else s1.push (.leaveCeilingRaise hoop dom)
      else if x.ceil < Nat.min (pumpLimit dom) (x.committed + step) then
        (s.withDomain hoop dom fun x => { x with ceil := x.ceil + 1, lastStart := s.time.toNat }).push (.leaveCeilingRaise hoop dom)
      else s.block

/-- LEAVE_CEILING_FALL (R377). -/
def State.fallCeiling (s : State) (hoop dom : Nat) : State :=
  let x := s.domain hoop dom
  if x.leaves.isEmpty && decide (x.lastStart + 1000 ≤ s.time.toNat) then
    s.withDomain hoop dom fun x => { x with ceil := x.committed }
  else s
def execLeaveCeilingFall (hoop dom : Nat) (s : State) : Result := .next (s.fallCeiling hoop dom)

/-- The committed leave of a master (R376, R378): of the streams of a selvage tile, of the issue element, or of the commands
of an engine. That of a remote sender stands at its own part. -/
def State.masterLeave (t : Task) (master : Word) : Option Nat :=
  let held := fun (mine : Instr → Bool) => ((t.ops.filter fun o => mine o.instr).flatMap fun o =>
    (o.words.filter fun w => w.stage == .sent).map (·.tick)).sum
  match bits master 31 30 with
  | 1 => some (held fun i => engineOf i == some (bits master 2 0))
  | 3 =>
    if bits master 6 0 = 64 then some (held fun i => i.spec.place = .matrix)
    else some ((t.streams.filter fun x => x.tile == bits master 5 0).map (·.leave)).sum
  | _ => none

/-- The master that stepped without leave is frozen: the engine or the node named. The quadrants of the task freeze with
its cause. -/
def State.freezeMaster (s : State) (master : Word) : State :=
  let freeze := fun (e : Engine) => { e with frozen := .byViolation }
  match bits master 31 30 with
  | 1 => s.withEngine (bits master 9 8) (bits master 2 0) freeze
  | 2 =>
    let n : BitVec 14 := master.extractLsb' 0 14
    let others := s.frozenNodes.filter fun (x : BitVec 14 × Freeze) => x.1 != n
    { s with frozenNodes := others ++ [(n, Freeze.byViolation)] }
  | _ => s

/-- LEAVE_VIOLATION (R378): a master that holds leave has drawn more than 0.5 A above it, and its task takes F_LEAVE.
`committed` is the leave of a remote sender. -/
def execLeaveViolation (task : Nat) (master : Word) (committed drawn : Nat) (s : State) : Result :=
  .next <|
    match s.task? task with
    | none => s
    | some t =>
      let leave := (State.masterLeave t master).getD committed
      if leave = 0 ∨ drawn ≤ leave + 4 then s
      else (s.freezeMaster master).raise task (.plain F_LEAVE master (BitVec.ofNat 32 leave) (BitVec.ofNat 32 drawn) 0)

/-! ### Target moves (R379) -/

/-- The store of a domain whose move completes. A rise takes the strokes that lift the store to its new voltage, unless a
limiter holds the pump lower (R462, R463); a fall has drained the store to it. -/
def State.moveStore (s : State) (t : Task) (dom : Nat) (goal : BitVec 10) : State :=
  let x := s.domain t.hoop dom
  let at' := fun (s : State) => s.withDomain t.hoop dom fun y => { y with vmv := goal, low := goal }
  if x.cur.toNat < goal.toNat then
    if s.holdMv t.hoop dom < goal.toNat then s
    else at' (s.deliver t.id t.hoop dom (Nat.min (strokesOf x.nseg goal.toNat - strokesOf x.nseg x.top) t.account)) |>.stopPumps t.id
  else at' s

/-- TARGET_MOVE_COMPLETE (R379): the move completes, and a pending target starts the next one. In store mode stalled pumps
complete no rise (R456). In schedule mode the rail has moved. -/
def execTargetMoveComplete (hoop dom : Nat) (s : State) : Result :=
  .next <|
    let x := s.domain hoop dom
    let railed := fun (s : State) => if x.schedule then
      let g := s.railGoal hoop dom
      s.withDomain hoop dom fun x => { x with rail := g } else s
    match x.moving with
    | none => railed s
    | some goal =>
      if !x.schedule && x.st == .feed && s.pumpsStalled && decide (x.cur.toNat < goal.toNat) then s.block
      else
        let s1 : State := match s.holder hoop dom with
          | some t => if !x.schedule && x.st == .feed then s.moveStore t dom goal else s
          | none => s
        let s2 := railed (s1.withDomain hoop dom fun x => { x with cur := goal, moving := none })
        if x.pend && (s2.domain hoop dom).st == .feed then s2.startMove hoop dom else s2

end Sys2Proof.Machine
end

