-- ==== Sys2Proof/Machine/Contexts.lean ====
section
/-!
DEFINITION. Contexts, sweeps, the commit of instances, the entry unit and the quiescence detector (R51 to R55,
R190, R193, R205 to R208, R217 to R219, R323 to R327, R330, R333).
-/

namespace Sys2Proof.Machine

/-! ### Granting contexts (R51, R205 to R208) -/

/-- Context numbers of a hoop that are neither live nor retired. -/
def State.ctxFree (s : State) (h : Nat) (c : BitVec 12) : Bool :=
  !(s.tasks.any fun t => t.hoop == h && t.phase != .saved && t.contexts.any fun x => x.ctx == c) &&
    !((s.hoop h).retired.any fun r => r.1 == c)

/-- A free context number; which one the allocator takes is not stated. -/
def State.pickCtx (s : State) (h : Nat) : Option (BitVec 12) × State :=
  match s.pick 4096 with
  | (k, s1) => (((List.range 4096).map fun i => BitVec.ofNat 12 (k + i)).find? (s.ctxFree h), s1)

/-- What the allocator answers a request. -/
inductive Grant where
  | fromReserve | fromPool | wait | exhausted
  deriving DecidableEq, Repr

/-- A retired context of the hoop would reach the task when a sweep frees it: its own returns to its reserve; another task's
fills that task's reserve first, and what is beyond it goes to the pool, as all of a task that has left or is saved does
(R205, R208). -/
def State.retiredReaches (s : State) (t : Task) : Bool :=
  let owners := ((s.hoop t.hoop).retired.map (·.2)).eraseDups
  owners.any fun id => id == t.id || (match s.task? id with
    | some u => u.hoop != t.hoop || u.phase == .saved ||
      decide (u.tcb.ctxres - u.reserve < ((s.hoop t.hoop).retired.filter fun r => r.2 == id).length)
    | none => true)

/-- The answer to a request, from the oldest chain or not (R207, R208). -/
def State.grantFor (s : State) (t : Task) (chain : Bool) : Grant :=
  if chain then
    (if 0 < t.reserve then .fromReserve
     else if 0 < s.unreserved t.hoop then .fromPool
     else if s.retiredReaches t then .wait else .exhausted)
  else if 0 < s.unreserved t.hoop ∧ !t.throttled (s.setsOf t.id) then .fromPool else .wait

/-- Allocate a context. `none` says that no number is free. -/
def State.allocCtx (s : State) (id : Nat) (g : Grant) (c : Context) : Option (BitVec 12 × State) :=
  match s.task? id with
  | none => none
  | some t =>
    match s.pickCtx t.hoop with
    | (none, _) => none
    | (some n, s1) => some (n, s1.withTask id fun t => { t with
        contexts := t.contexts ++ [{ c with ctx := n, seq := t.nextSeq }]
        nextSeq := t.nextSeq + 1
        reserve := if g = .fromReserve then t.reserve - 1 else t.reserve })

/-- The requesting context lies on the oldest chain (R206). The entry unit's first request is for what will be the oldest
context. -/
def Task.onChain (t : Task) (r : CtxRequest) : Bool := if r.entry then t.contexts.isEmpty else t.oldestChain.contains r.parent.ctx

/-- The tokens of a request go into its context. -/
def State.enterCtx (s : State) (r : CtxRequest) (n : BitVec 12) : State :=
  s.pushAll (r.sends.map fun f => .tokenRoute { f with tok := { f.tok with tag := { f.tok.tag with ctx := n } } })

/-- The allocator serves requests of the oldest chain first and the others in arrival order (R207): another
request of the hoop that can be granted comes before this one, or the queue of 512 has no place for it. -/
def State.requestBehind (s : State) (t : Task) (chain : Bool) : Bool :=
  let place := match s.cur with
    | some (_, k) => k
    | none => 0
  let able := fun (r : CtxRequest) => match s.task? r.task with
    | some u => u.phase == .running && (s.grantFor u (u.onChain r) == .fromPool || s.grantFor u (u.onChain r) == .fromReserve)
    | none => false
  let ofChain := fun (r : CtxRequest) => match s.task? r.task with
    | some u => u.onChain r
    | none => false
  let others := s.requestsOf t.hoop
  let before := others.filter fun x => decide (x.1 < place)
  !chain && (decide (512 ≤ before.length) || (others.any fun x => able x.2 && ofChain x.2) || before.any fun x => able x.2)

/-- An earlier request of the same source for the same child waits: the tokens keep the order of their emission (R38). -/
def State.requestOrdered (s : State) (t : Task) (r : CtxRequest) : Bool :=
  let place := match s.cur with
    | some (_, k) => k
    | none => 0
  let source := fun (x : CtxRequest) => (x.sends.head?).map (·.src)
  (s.requestsOf t.hoop).any fun x => decide (x.1 < place) && x.2.task == r.task && !x.2.entry && !r.entry && x.2.target == r.target &&
    x.2.parent.ctx == r.parent.ctx && x.2.parent.iter == r.parent.iter && source x.2 == source r

/-! ### Sweeps (R53, R193) -/

/-- A sweep is due: a context is retired, or a squash record is held. -/
def State.sweepDue (s : State) (h : Nat) : Bool :=
  (s.hoop h).sweep.isNone && (!(s.hoop h).retired.isEmpty || s.tasks.any fun t => t.hoop == h && !t.squashes.isEmpty)

/-- SWEEP_START (R53). -/
def execSweepStart (hoop : Nat) (s : State) : Result :=
  .next <|
    if s.sweepDue hoop then
      let s1 := s.withHoop hoop fun h => { h with sweep := some h.retired }
      let mark := fun (t : Task) => { t with squashes := t.squashes.map fun r => { r with old := true } }
      ({ s1 with tasks := modifyWhere (fun t => t.hoop == hoop) mark s1.tasks }).push (.sweepEnd hoop)
    else s

/-- A token of the hoop is on its way ahead of the marker. -/
def State.tokenAhead (s : State) (h place : Nat) : Bool :=
  (s.agenda.take place).any fun x => match x.flight? with
    | some f => match s.task? f.task with
      | some t => t.hoop == h
      | none => (s.hoop h).retired.any fun r => r.1 == f.tok.tag.ctx && r.2 == f.task
    | none => false

/-- A spill search of the hoop is under way, or a cancelled reader entry is not acknowledged (R266, R385). -/
def State.sweepHeld (s : State) (h : Nat) : Bool :=
  s.tasks.any fun t => t.hoop == h && t.ops.any OpRec.cancels

/-- The freed contexts of a sweep rejoin their task's reserve, until it is full (R205). -/
def refill (freed : List (BitVec 12 × Nat)) (t : Task) : Task :=
  { t with reserve := Nat.min t.tcb.ctxres (t.reserve + (freed.filter fun r => r.2 == t.id).length) }

/-- SWEEP_END (R53, R193, R205). -/
def execSweepEnd (hoop : Nat) (s : State) : Result :=
  .next <|
    let place := match s.cur with
      | some (_, k) => k
      | none => 0
    match (s.hoop hoop).sweep with
    | none => s
    | some freed =>
      if s.tokenAhead hoop place || s.sweepHeld hoop then s.block
      else
        let s1 := s.withHoop hoop fun h => { h with retired := h.retired.filter fun r => !freed.contains r, sweep := none }
        let clear := fun (t : Task) => refill freed { t with squashes := t.squashes.filter fun r => !r.old }
        let s2 := { s1 with tasks := modifyWhere (fun (t : Task) => t.hoop == hoop && t.phase != Phase.saved) clear s1.tasks }
        if s2.sweepDue hoop then s2.push (.sweepStart hoop) else s2

/-! ### The static schedule table (R323, R324) -/

/-- The header of a schedule table. -/
structure SchedHeader where
  nent : Nat
  infl : Nat
  pull : Bool
  lvlt : BitVec 9
  deriving DecidableEq, Repr

/-- A number of `n` bytes of the table. `error` holds the fault of the read. -/
def State.readSched (s : State) (t : Task) (off n : Nat) : Except (Option (BitVec 8)) Nat :=
  match s.readVa t.tcb.asid (t.tcb.sched + off) n with
  | .ok bs => .ok (natOfBytes bs)
  | .error .prot => .error (some F_PROT)
  | .error _ => .error (some F_XLATE)

/-- The header, checked. `error none` is a defect. -/
def State.schedHeader (s : State) (t : Task) : Except (Option (BitVec 8)) SchedHeader :=
  if t.tcb.sched % 8 != 0 then .error none
  else match s.readSched t 0 4, s.readSched t 4 4, s.readSched t 8 4, s.readSched t 12 4 with
  | .ok a, .ok b, .ok c, .ok d =>
    let h : SchedHeader := ⟨a, b / 2 ^ 8 % 256, b % 2 == 1, BitVec.ofNat 9 c⟩
    if a = 0 ∨ 2 ^ 24 ≤ a ∨ h.infl = 0 ∨ 2 ^ 16 ≤ b ∨ b / 2 % 128 ≠ 0 ∨ 2 ^ 9 ≤ c ∨ d ≠ 0 then .error none else .ok h
  | .error e, _, _, _ | _, .error e, _, _ | _, _, .error e, _ | _, _, _, .error e => .error e

/-- The identifier at an ordinal, counted from entry `e` on; `none` past the end. -/
def State.schedFrom (s : State) (t : Task) (e ord : Nat) : Nat → Except (Option (BitVec 8)) (Option (BitVec 64))
  | 0 => .ok none
  | n + 1 =>
    match s.readSched t (16 + 16 * e) 8, s.readSched t (24 + 16 * e) 4, s.readSched t (28 + 16 * e) 4 with
    | .ok wid, .ok count, .ok step =>
      if count = 0 then .error none
      else if ord < count then .ok (some (BitVec.ofNat 64 wid + BitVec.ofInt 64 (ord * (BitVec.ofNat 32 step).toInt)))
      else s.schedFrom t (e + 1) (ord - count) n
    | .error x, _, _ | _, .error x, _ | _, _, .error x => .error x

/-- The work identifier at an ordinal. A task without a table has one, of value 0 (R325). -/
def State.widAt (s : State) (t : Task) (ord : Nat) : Except (Option (BitVec 8)) (Option (BitVec 64)) :=
  if t.tcb.sched = 0 then .ok (if ord = 0 then some 0 else none)
  else match s.schedHeader t with
    | .error e => .error e
    | .ok h => s.schedFrom t 0 ord h.nent

/-- The task stops on a defect or a fault of its table (R324). -/
def State.schedFault (s : State) (t : Task) (e : Option (BitVec 8)) : State :=
  match e with
  | some code => s.raiseUnstated t.id .unit code
  | none => s.raise t.id (.at F_ILL .unit (illDetail 0x02 false 0 0x1FF) 0 (vaLo t.tcb.sched) (vaHi t.tcb.sched))

/-! ### The end of a task (R190, R327) -/

/-- The task ends: its other uncommitted instances are squashed, and its commit begins. -/
def State.endTask (s : State) (id : Nat) : State :=
  match s.task? id with
  | none => s
  | some t =>
    let here := t.insts.map (·.key)
    ((s.dropInstances id fun k => here.contains k).withTask id fun t => { t with phase := .ending, ended := true, windows := [], loops := [] }).push
      (.taskCommit id)

/-- A task with a table ends when its cursor has reached the end and no injected context is live (R327). -/
def State.checkEnd (s : State) (id : Nat) : State :=
  match s.task? id with
  | none => s
  | some t =>
    if t.ended || t.contexts.any (·.injected) then s
    else match s.widAt t t.entryNext with
      | .error e => s.schedFault t e
      | .ok (some _) => s
      | .ok none => s.endTask id

/-- The injected context that a context descends from. -/
def Task.injectedRoot (t : Task) (ctx : BitVec 12) : Nat → BitVec 12
  | 0 => ctx
  | n + 1 => match (t.context? ctx).bind (·.parent) with
    | some p => t.injectedRoot p.ctx n
    | none => ctx

/-- An END exit has committed (R190, R327). -/
def State.endExit (s : State) (id : Nat) (ctx : BitVec 12) : State :=
  match s.task? id with
  | none => s
  | some t =>
    if t.tcb.sched = 0 then s.endTask id
    else
      let root := t.injectedRoot ctx t.contexts.length
      (s.retire id (t.withDescendants [root] t.contexts.length)).checkEnd id

/-! ### The commit of an instance (R55, R190, R203) -/

/-- The staged entries of an instance join the committed set in commit order (R234, R268, R298). Its bytes stay in the order
in which they were staged, so that later bytes replace earlier ones. -/
def Task.commitStaged (t : Task) (k : InstKey) : Task :=
  let mine := fun (w : Staged) => w.owner == .inst k
  let ops := fun (o : StagedOp) => o.inst == k && o.order.isNone
  let streams := t.streams.map fun x => if x.firing.instAt 0 == k then { x with instDone := true } else x
  Task.joinStreams { t with
    staged := t.staged.filter (fun w => !mine w) ++ (t.staged.filter mine).map fun w => { w with owner := .committed }
    stagedOps := t.stagedOps.filter (fun o => !ops o) ++
      (sortBy (fun o => o.lsid.toNat) (t.stagedOps.filter ops)).map fun o => { o with order := some t.commits }
    streams := streams
    commits := t.commits + 1 }

/-- The sets of a committed instance that have not fired are discarded. -/
def firedOnly (id : Nat) (dead : InstKey → Bool) : List Item → List Item × List Wait × Nat
  | [] => ([], [], 0)
  | x :: xs =>
    match firedOnly id dead xs with
    | (items, ws, n) =>
      match x with
      | .firing g =>
        let fired := (List.range g.fired.length).map g.instAt
        let dead' := fun (k : InstKey) => dead k && !fired.contains k
        if g.task = id then
          match liveFirings dead' g with
          | (gs, back) => (gs.map Item.firing ++ items, back ++ ws, n + lostTokens dead' g)
        else (x :: items, ws, n)
      | .event _ => (x :: items, ws, n)

/-- Every token of an instance that still waits is discarded and counted as stray (R190 step 3). -/
def State.discardTokens (s : State) (id : Nat) (k : InstKey) : State :=
  match s.task? id with
  | none => s
  | some t =>
    let dead := fun (x : InstKey) => x == k
    match firedOnly id dead s.agenda with
    | (items, back, n) =>
      let s1 := ({ s with agenda := items }).withTask id fun t => t.settleSpill { t with
        waiting := liveWaits dead t.waiting ++ back
        loops := t.loops.filter fun l => !(l.ended && l.firing.tag.blk == k.blk && l.firing.tag.ctx == k.ctx && l.last == k.iter) }
      let s2 := s1.withTask id fun t => t.keepAccums fun a => !dead ⟨a.tag.blk, a.tag.ctx, a.iter⟩
      s2.withHoop t.hoop fun h => { h with stray := h.stray + BitVec.ofNat 64 (n + (t.waiting.filter fun w => anyDead dead w.tok).length) }

/-- The window base passes a committed instance; a window with no later instance closes (R187). -/
def Task.advance (t : Task) (k : InstKey) : Task :=
  let later := t.insts.any fun i => i.key.blk == k.blk && i.key.ctx == k.ctx && i.key != k
  let mine := fun (w : Window) => w.blk == k.blk && w.ctx == k.ctx
  { t with
    insts := t.insts.filter fun i => i.key != k
    windows := if later then modifyWhere mine (fun w => { w with base := w.base + 1, reach := w.reach - 1 }) t.windows
               else t.windows.filter fun w => !mine w }

/-- What a committed instance held leaves the hoop: its exit's word to a target block, or the returned word to the
call's targets (R190, R201, R203). -/
def State.deliverHeld (s : State) (id : Nat) (k : InstKey) (h : HeldExit) : State :=
  match s.task? id with
  | none => s
  | some t =>
    match h with
    | .ret w =>
      match (t.context? k.ctx).bind (·.route) with
      | none => s
      | some r =>
        let oq := s.fresh
        let send := fun (s : State) (x : BitVec 9) =>
          if x = noTarget then s
          else s.emitTo id .unit oq none .keep r.tag r.tag.blk (targetInst x) (targetPort x) w.fmt [w.word]
        (send (send s.freshen r.t0) r.t1).retire id (t.withDescendants [k.ctx] t.contexts.length)
    | .exit e w tag =>
      match t.exit? k.blk e with
      | none => s
      | some x =>
        match x.target with
        | none => s.endExit id k.ctx
        | some blk =>
          let b : BitVec 7 := BitVec.ofNat 7 blk
          let new : Tag := { tag with fmt := w.fmt, port := 0, rdir := none }
          match x.tact with
          | .parent =>
            match (t.context? k.ctx).bind (·.parent) with
            | none => s.raiseIll id .unit tag 0x10
            | some p =>
              let up : Tag := { new with ctx := p.ctx, iter := p.iter, path := p.path, pdep := p.pdep }
              (s.push (.heldExitDelivery id ⟨.keep, up, b, w.word⟩)).retire id (t.withDescendants [k.ctx] t.contexts.length)
          | .child => s.push (.heldExitDelivery id ⟨.child, new, b, w.word⟩)
          | a => s.push (.heldExitDelivery id ⟨.keep, new.act a, b, w.word⟩)

/-- A matrix instruction that fired in an instance holds its commit until it completes (R392). The wait of CLAIM for a
slot does not. -/
def State.matrixHolds (s : State) (t : Task) (k : InstKey) : Bool :=
  t.ops.any fun o => (List.range o.words.length).any fun j =>
    (o.at j).stage != .done && o.firing.instAt j == k && (match o.instr with
      | .oslotRelease _ | .oploadDense _ | .oploadSparse _ | .oploadCodebook _ | .mma _ | .accZero _ | .accRead _ | .accPeek _
      | .accWrite _ | .accStore _ => true
      | .oslotClaim _ => (s.hoop t.hoop).slots.any fun x => x.st == .free
      | _ => false)

/-- A word that performs only while its instance is the base of its window, or whose fault is held until then, has not left
its site: the commit of its instance waits for it (R232, R257, R440). -/
def State.baseHolds (s : State) (t : Task) (k : InstKey) : Bool :=
  s.agenda.any fun x => match x with
    | .event (.atOnceRelease id op j) | .event (.enginePortDepart id op j) | .event (.heldFaultRecheck id op j) =>
      id == t.id && (match t.op? op with
        | some o => !(o.at j).dropped && ((o.at j).stage == .ready || (o.at j).stage == .held) && o.firing.instAt j == k
        | none => false)
    | _ => false

/-- INSTANCE_COMMIT (R55, R190, R329, R392). -/
def execInstanceCommit (task : Nat) (inst : InstKey) (s : State) : Result :=
  .next <|
    match s.task? task with
    | none => s
    | some t =>
      match t.inst? inst with
      | none => s
      | some i =>
        if t.phase != .running && t.phase != .halting then s
        else if t.halted || !t.isBase inst then s.block
        else if !t.complete i then s
        else if s.matrixHolds t inst || s.baseHolds t inst then s.block
        else if 32 < t.launches.length + i.launches.length then s.raise task (.at F_STAGE .unit 0 0 0 0)
        else
          let s1 := s.withTask task fun t => ({ t with flags := t.flags ||| i.flags, launches := t.launches ++ i.launches, quiet := 0 }.withContext inst.ctx
            fun c => { c with frame := i.writes.foldl (fun fr x => putFrame x fr) c.frame }).commitStaged inst
          let s2 := ((s1.settleSbars task).discardTokens task inst).withTask task fun t => t.advance inst
          match i.held with
          | none => s2
          | some h => s2.deliverHeld task inst h

/-- The context that a delivery goes to: under CHILD, that of the live child it reuses, if there is one (R51). -/
def Task.deliveryCtx (t : Task) (d : Delivery) : Option (BitVec 12) :=
  if d.tact = .child then (t.childOf ⟨t.id, d.tag, d.target, none, [], false⟩).map (·.ctx) else some d.tag.ctx

/-- A delivery waits for the squash records of its block and context to clear (R193). -/
def Task.deliveryWaits (t : Task) (d : Delivery) : Bool :=
  match t.deliveryCtx d with
  | some c => t.squashes.any fun r => r.blk == d.target && r.ctx == c
  | none => false

/-- HELD_EXIT_DELIVERY (R190, R193): a delivery waits while a squash record of its block and context is held. -/
def execHeldExitDelivery (task : Nat) (d : Delivery) (s : State) : Result :=
  .next <|
    match s.task? task with
    | none => s
    | some t =>
      if t.phase.leaving || t.ended || (t.context? d.tag.ctx).isNone then s
      else if t.halted || t.deliveryWaits d then s.block
      else s.freshen.emitTo task .unit s.fresh none d.tact d.tag d.target 0 0 d.tag.fmt [d.word]

/-! ### The entry unit (R325, R326, R330) -/

/-- The most significant field in which two identifiers differ, or the number of fields (R325). -/
def levelOf (widths : List Nat) (a b : BitVec 64) : Nat :=
  ((List.range widths.length).find? fun k => widField widths k a != widField widths k b).getD widths.length

/-- The NEXTW words that wait for an injection, in order (R330). -/
def Task.nextwWaits (t : Task) : List (Nat × Nat) :=
  t.ops.flatMap fun o => match o.instr with
    | .nextw _ => ((List.range o.words.length).filter fun j => (o.at j).stage == .queued && !(o.at j).dropped).map fun j => (o.id, j)
    | _ => []

/-- The frame words of an injected context (R325 step 2). -/
def injectedFrame (wid : BitVec 64) (ord : Nat) : List FrameWord :=
  putFrame ⟨2, BitVec.ofNat 32 ord, 0⟩ (putFrame ⟨1, wid.extractLsb' 32 32, 0⟩ (putFrame ⟨0, wid.extractLsb' 0 32, 0⟩ []))

/-- Inject one identifier into a granted context (R325). -/
def State.inject (s : State) (id : Nat) (t : Task) (n : BitVec 12) (wid : BitVec 64) (lvlt : BitVec 9) (level : Nat) : State :=
  let tag : Tag := ⟨n, 0, 0, 0, 0, 0, 0, 0, none⟩
  let oq := s.fresh
  let s1 := if lvlt = noTarget then s.freshen
    else s.freshen.emitTo id .unit oq none .keep tag 0 (targetInst lvlt) (targetPort lvlt) 7 [BitVec.ofNat 32 (256 * level + 5)]
  (s1.withTask id fun t => { t with entryNext := t.entryNext + 1 }).emitTo id .unit oq none .keep tag 0 0 0 0
    [if t.tcb.sched = 0 then 0 else wid.extractLsb' 0 32]

/-- Whether the entry unit may inject now (R326). -/
def State.mayInject (s : State) (t : Task) (h : Option SchedHeader) : Bool :=
  t.entryNext == 0 || (match h with
    | none => false
    | some h => !t.throttled (s.setsOf t.id) && decide ((t.contexts.filter (·.injected)).length < h.infl) &&
        (!h.pull || !t.nextwWaits.isEmpty))

/-- The task's table header; a task without a table has none. -/
def State.header? (s : State) (t : Task) : Except (Option (BitVec 8)) (Option SchedHeader) :=
  if t.tcb.sched = 0 then .ok none
  else match s.schedHeader t with
    | .ok h => .ok (some h)
    | .error e => .error e

/-- The level of the LEVEL token for an ordinal: against the identifier before it. -/
def State.injectLevel (s : State) (t : Task) (wid : BitVec 64) : Nat :=
  match s.widAt t (t.entryNext - 1) with
  | .ok (some prev) => levelOf t.tcb.widths prev wid
  | _ => 0

/-- One injection into a context that the allocator grants (R325). -/
def State.injectNext (s : State) (t : Task) (h : Option SchedHeader) (wid : BitVec 64) (g : Grant) : State :=
  let frame := if t.tcb.sched = 0 then [] else injectedFrame wid t.entryNext
  match s.allocCtx t.id g ⟨0, 0, none, 0, none, frame, wid, true⟩ with
  | none => s.block
  | some (n, s1) =>
    let lvlt := match h with
      | some h => if t.entryNext = 0 then noTarget else h.lvlt
      | none => noTarget
    let s2 := s1.inject t.id t n wid lvlt (if lvlt = noTarget then 0 else s.injectLevel t wid)
    let pull := match h with
      | some h => h.pull && t.entryNext != 0
      | none => false
    (match t.nextwWaits with
     | (op, j) :: _ => if pull then s2.finishWord t.id op j [.data 0 1] else s2
     | [] => s2).push (.entryInjection t.id)

/-- The request of the entry unit, which is one like any other (R205). -/
def entryRequest (task : Nat) : CtxRequest := ⟨task, ⟨0, 0, 0, 0, 0, 0, 0, 0, none⟩, 0, none, [], true⟩

/-- ENTRY_INJECTION (R325 to R327, R330): once the next identifier may be injected, the entry unit asks for a context. -/
def execEntryInjection (task : Nat) (s : State) : Result :=
  .next <|
    match s.task? task with
    | none => s
    | some t =>
      if t.phase.leaving || t.ended then s
      else if t.halted then s.block
      else match s.header? t, s.widAt t t.entryNext with
        | .error e, _ => s.schedFault t e
        | _, .error e => s.schedFault t e
        | .ok _, .ok none =>
          (t.nextwWaits.foldl (fun s x => s.finishWord task x.1 x.2 [.data 0 0]) s).checkEnd task
        | .ok h, .ok (some _) => if s.mayInject t h then s.push (.contextGrant (entryRequest task)) else s.block

/-- A request that the allocator grants: the entry unit injects, or the tokens enter their child context. -/
def State.granted (s : State) (t : Task) (r : CtxRequest) (g : Grant) : State :=
  if r.entry then
    match s.header? t, s.widAt t t.entryNext with
    | .ok h, .ok (some wid) => if s.mayInject t h then s.injectNext t h wid g else s.push (.entryInjection t.id)
    | _, _ => s.push (.entryInjection t.id)
  else
    match t.context? r.parent.ctx with
    | none => s
    | some p => match s.allocCtx r.task g ⟨0, 0, some r.parent, r.target, r.route, [], p.wid, false⟩ with
      | some (n, s1) => s1.enterCtx r n
      | none => s.block

/-- CONTEXT_GRANT (R51, R202, R205, R207, R208). -/
def execContextGrant (r : CtxRequest) (s : State) : Result :=
  .next <|
    match s.task? r.task with
    | none => s
    | some t =>
      if t.phase.leaving || t.ended || t.phase.committed then s
      else if t.halted then s.block
      else if !r.entry && (t.context? r.parent.ctx).isNone then s
      else if s.requestOrdered t r then s.block
      else match if r.entry then none else t.childOf r with
        | some c =>
          (s.withTask r.task fun t => t.withContext c.ctx fun c => if r.route.isSome then { c with route := r.route } else c).enterCtx r c.ctx
        | none =>
          if s.requestBehind t (t.onChain r) then s.block
          else match s.grantFor t (t.onChain r) with
            | .wait => s.block
            | .exhausted => s.raise r.task (.at F_CTX (((r.sends.head?).map (·.src)).getD .unit) 0 0 0 0)
            | g => s.granted t r g

/-- NEXTW (R330). -/
def execNextw (f : XForm) (s : State) : Result :=
  withFiring s fun g s => sysFiring (.nextw f) (fun op j s =>
    match s.task? g.task with
    | none => s
    | some t =>
      match s.header? t, s.widAt t t.entryNext with
      | .error e, _ => s.schedFault t e
      | _, .error e => s.schedFault t e
      | .ok _, .ok none => s.finishWord g.task op j [.data 0 0]
      | .ok h, .ok (some _) =>
        if (match h with | some h => h.pull | none => false) then s.withOpWord g.task op j fun w => { w with stage := .queued }
        else s.finishWord g.task op j [.data 0 1]) g s

/-- LAUNCH (R329): the launch line is checked, and recorded when the instance commits. -/
def execLaunch (f : XForm) (s : State) : Result :=
  withFiring s fun g s => sysFiring (.launch f) (fun op j s => s.accessWord g.task op j) g s

/-- TIME (R333). -/
def execTime (f : XForm) (s : State) : Result :=
  withFiring s fun g s => sysFiring (.time f) (fun op j s =>
    s.finishWord g.task op j [.data 0 (s.time.extractLsb' 0 32), .data 0 (s.time.extractLsb' 32 32)]) g s

/-! ### Quiescence (R217 to R219) -/

/-- The oldest instance of a list in its window, by block, and of these the one that came into being first. -/
def Task.oldestInst (t : Task) (ctx : BitVec 12) : Option Instance :=
  let mine := t.insts.filter fun i => i.key.ctx == ctx
  let firsts := mine.filter fun i => mine.all fun x => x.key.blk != i.key.blk ||
    decide (t.windowAge i.key.blk ctx i.key.iter ≤ t.windowAge i.key.blk ctx x.key.iter)
  firsts.foldl (fun best i => match best with
    | some b => if b.seq ≤ i.seq then some b else some i
    | none => some i) none

/-- QUIESCENCE_TIMEOUT (R217, R219). A stop at the floor is F_SHORT, never F_QUIET. -/
def State.quiesce (s : State) (task : Nat) : State :=
  match s.task? task with
  | none => s
  | some t =>
    if !(t.phase == .running || t.phase == .ending) || decide (t.quiet < (s.hoop t.hoop).quiet.toNat) then s
    else
      let w : Word := BitVec.ofNat 32 (Nat.min ((s.setsOf task).foldl (fun n g => n + g.tokens.length + g.win.length) t.waiting.length) 0xFFFF)
      match (t.oldestChain.getLast?).bind t.oldestInst with
      | some i =>
        let b := t.block? i.key.blk
        let d0 := i.key.ctx ++ i.key.iter ++ i.key.blk ++ BitVec.ofBool i.exited
        s.raise task (.plain F_QUIET d0 (((b.map (·.storeMask)).getD 0) &&& ~~~i.lsids) (((b.map (·.writeMask)).getD 0) &&& ~~~i.fws) w)
      | none => s.raise task (.plain F_QUIET 0xFFFFFFFF 0 0 w)

def execQuiescenceTimeout (task : Nat) (s : State) : Result := .next (s.quiesce task)

end Sys2Proof.Machine
end

