-- ==== Sys2Proof/Machine/Sync.lean ====
section
/-!
DEFINITION. Synchronisation at memory (R256 to R282): requests to structure units, banks, locks and queues,
their replies, and the serialising token.
-/

namespace Sys2Proof.Machine

/-- The key an access goes under: none for a scratchpad segment. -/
def Task.keyOf (t : Task) (a : Access) : BitVec 12 := if (t.segment a.seg).typ = typScr then 0 else (t.segment a.seg).key

/-- The reply to word `j` of an operation is on its way. -/
def State.reply (s : State) (id op j : Nat) (r : BankReply) : State := s.push (.bankReply id op j r)

/-! ### Structure units (R259 to R266) -/

/-- The latest of a task's committed staged operations on a structure word that `p` selects. -/
def Task.committedOp (t : Task) (a : Nat) (p : StagedWhat → Bool) : Option StagedOp :=
  (t.stagedOps.filter fun o => o.pa == a && o.order.isSome && p o.what).foldl (fun best o =>
    match best with
    | some b => if (b.order.getD 0) ≤ (o.order.getD 0) then some o else best
    | none => some o) none

def StagedWhat.isWrite : StagedWhat → Bool
  | .write _ _ => true
  | _ => false

/-- The task's own committed clear of a word is the last of its committed operations on it (R261). -/
def Task.committedClear (t : Task) (a : Nat) : Bool :=
  match t.committedOp a fun _ => true with
  | some c => c.what == .clear
  | none => false

/-- A write of the word by an uncommitted instance of the task has marked it: it is staged, or its reply is on its way. -/
def State.pendingWrite (s : State) (t : Task) (a : Nat) : Bool :=
  (t.stagedOps.any fun o => o.pa == a && o.order.isNone && o.what.isWrite) || (s.marksOf t fun o j => !(o.at j).dropped).contains a

/-- Join the reader list of a word, or wait for a reader entry (R260). -/
def State.joinReaders (s : State) (id op j : Nat) (t : Task) (a : Nat) : State :=
  if 1048576 ≤ (s.tower (structTower a)).poolUsed then
    (s.withOpWord id op j fun w => { w with stage := .queued }).push (.structPoolWaitEnd id op j)
  else
    let w := (s.wordAt a).getD ⟨a, .deferred, 0, none, 0, []⟩
    let s1 := s.withTower (structTower a) fun k => { k with poolUsed := k.poolUsed + 1 }
    (s1.setReaders w (w.readers ++ [⟨id, op, j, t.tower⟩])).withOpWord id op j fun w => { w with stage := .reading }

/-- A structure unit serves a read request (R260). A word provisional under the reader's own task gives the staged word of its
committed write, and waits while the write of an uncommitted instance has marked it. -/
def State.serveRead (s : State) (id op j : Nat) (t : Task) (o : OpRec) : State :=
  let a := wordOf (o.at j).pa
  let answer := fun (w : Word) (fmt : BitVec 3) =>
    (s.withOpWord id op j fun w => { w with stage := .sent }).reply id op j ⟨w, 0, 0, fmt, []⟩
  if (o.at j).dropped then s.finishWord id op j []
  else match s.wordAt a with
    | none => s.joinReaders id op j t a
    | some w =>
      match w.code with
      | .full =>
        if s.lineGood a (t.keyOf (accessOf o.instr o.firing j)) then answer (s.mem.readWord a) w.fmt
        else (s.endWord id op j).raiseAccess id o.firing.src o.firing.tag (accessOf o.instr o.firing j) F_CHECK
          (t.shownVa (accessOf o.instr o.firing j))
      | .deferred => s.joinReaders id op j t a
      | .provisional =>
        if w.owner = some (.task id) then
          let w := if s.pendingWrite t a then none else (t.committedOp a StagedWhat.isWrite).map StagedOp.what
          match w with
          | some (.write v fmt) => answer v fmt
          | _ => (s.withOpWord id op j fun w => { w with stage := .queued }).block
        else s.joinReaders id op j t a

/-- The task slot that a provisional word's owner shows in a fault record (R290). The manual does not say what
a remote sender shows. -/
def State.ownerSlot (s : State) (o : Option Owner) : BitVec 8 :=
  let own := match o with
    | some (.task k) => s.task? k
    | some (.remote x) => if x.node = s.node then s.task? x.task else none
    | _ => none
  match own with
  | some t => BitVec.ofNat 8 t.slot
  | none => Config.remoteSlot s.fresh

/-- A structure unit serves a mark request (R261): the task's own committed clear of the word is applied
before the state is judged. -/
def State.serveMark (s : State) (id op j : Nat) (t : Task) (o : OpRec) : State :=
  let a := wordOf (o.at j).pa
  let cleared := t.committedClear a
  let refuse := fun (slot : BitVec 8) (code : BitVec 2) =>
    s.freshen.reply id op j ⟨0, 2, 0, 0, [(0 : BitVec 16) ++ slot ++ (0 : BitVec 6) ++ code]⟩
  let take := (s.markWord a (.task id) 0).reply id op j ⟨0, 0, 0, 0, []⟩
  if (o.at j).dropped then s.finishWord id op j []
  else match s.wordAt a with
    | none => take
    | some w =>
      match w.code with
      | .deferred => take
      | .full => if cleared then take else refuse 0xFF 3
      | .provisional =>
        if cleared && w.owner == some (.task id) && !s.pendingWrite t a then s.reply id op j ⟨0, 0, 0, 0, []⟩
        else refuse (s.ownerSlot w.owner) 2

/-- STRUCT_REQUEST (R260, R261). A read that waits for its own task's write stays here. -/
def execStructRequest (task op j : Nat) (s : State) : Result :=
  .next <|
    match s.op? task op with
    | none => s
    | some (t, o) =>
      if (o.at j).stage = .sent ∨ (o.at j).stage = .queued then
        match o.instr with
        | .iread _ => s.serveRead task op j t o
        | _ => s.serveMark task op j t o
      else s

/-- STRUCT_POOL_WAIT_END (R260). -/
def execStructPoolWaitEnd (task op j : Nat) (s : State) : Result :=
  .next (s.onWord task op j .queued fun t o =>
    if (o.at j).dropped || decide ((s.tower (structTower (wordOf (o.at j).pa))).poolUsed < 1048576) then
      s.serveRead task op j t o
    else s.block)

/-- Cancel the entries of an operation's dropped words on one reader list. -/
def State.cancelOn (s : State) (w : WordState) (gone : Reader → Bool) : State :=
  let rs := w.readers.filter fun r => !gone r
  if rs.length = w.readers.length then s
  else (s.setReaders w rs).freeEntries w.addr (w.readers.length - rs.length)

/-- READER_CANCEL (R266): the entries of an operation's dropped words are cancelled, and the words finish. `id`
is the operation. -/
def execReaderCancel (task id : Nat) (s : State) : Result :=
  .next <|
    match s.op? task id with
    | none => s
    | some (_, o) =>
      let gone := fun (r : Reader) => r.task == task && r.op == id && (o.at r.j).dropped
      let s1 := s.words.foldl (fun s w => s.cancelOn w gone) s
      (List.range o.words.length).foldl (fun s j =>
        if (o.at j).dropped && (o.at j).stage == .reading then s.finishWord task id j [] else s) s1

/-! ### Banks (R256, R257, R267 to R271) -/

/-- FADD at a bank (R72). -/
def bankFadd (old b : Word) : FRes := if (f32 old).isNaN || (f32 b).isNaN then (nan32, flagNV) else fadd old b

/-- The new word and the flags of a bank operation (R267). -/
def bankCompute (op : BankOp) (old b c : Word) : Word × BitVec 5 :=
  match op with
  | .aadd => (addWords old b, 0)
  | .afadd => bankFadd old b
  | .amin => (minWords old b, 0)
  | .amax => (maxWords old b, 0)
  | .aminu => (minuWords old b, 0)
  | .amaxu => (maxuWords old b, 0)
  | .aand => (old &&& b, 0)
  | .aor => (old ||| b, 0)
  | .axor => (old ^^^ b, 0)
  | .aswap => (b, 0)
  | .acas => (if old = c then b else old, 0)
  | .afmin => fmin old b
  | .afmax => fmax old b

/-- The format of the old value (R267). -/
def bankFormat (op : BankOp) (b : BitVec 3) : BitVec 3 :=
  match op with
  | .afadd | .afmin | .afmax => 1
  | .aswap | .acas => b
  | _ => 0

/-- The operation of an ATOM or ATOMSC. -/
def bankOpOf : Instr → Option BankOp
  | .aadd _ => some .aadd
  | .afadd _ => some .afadd
  | .amin _ => some .amin
  | .amax _ => some .amax
  | .aminu _ => some .aminu
  | .amaxu _ => some .amaxu
  | .aand _ => some .aand
  | .aor _ => some .aor
  | .axor _ => some .axor
  | .aswap _ => some .aswap
  | .acas _ => some .acas
  | .afmin _ => some .afmin
  | .afmax _ => some .afmax
  | .atomsc _ op => some op
  | _ => none

/-- Raise flags into a task's flag word at a bank (R269). -/
def raiseBankFlags (bank slot : Nat) (fl : BitVec 5) (l : List BankFlags) : List BankFlags :=
  if fl = 0 then l
  else if l.any fun b => b.bank == bank && b.slot == slot then
    modifyWhere (fun b => b.bank == bank && b.slot == slot) (fun b => { b with flags := b.flags ||| fl }) l
  else l ++ [⟨bank, slot, fl⟩]

/-- A bank applies one operation for a task (R73, R264, R267, R269): the old value, the flags and the state. -/
def State.bankApply (s : State) (t : Task) (pa : Nat) (key : BitVec 12) (op : BankOp) (b c : Word) : Word × BitVec 5 × State :=
  let a := wordOf pa
  let old := s.mem.readWord a
  match bankCompute op old b c with
  | (new, fl) =>
    let s1 := s.plainWrite a (bytesOfNat new.toNat 4) key (slotWriter t.slot)
    (old, fl, ({ s1 with bankFlags := raiseBankFlags (bankOf a) t.slot fl s1.bankFlags }).withTask t.id fun t =>
      { t with banks := if t.banks.contains (bankOf a) then t.banks else t.banks ++ [bankOf a] })

/-- The line requests that an at-once operation debits as its request leaves (R254): one for each distinct
line of the set, two for a queue operation. -/
def State.debitOnce (s : State) (t : Task) (o : OpRec) (j : Nat) : Except State State :=
  let dom := t.domainOf o.firing.site
  match o.instr with
  | .qput _ | .qget _ => s.debitLines o.firing dom .shared 2
  | .unlock _ => s.debitLines o.firing dom .shared 1
  | _ => s.askLine o j (o.at j).pa 1 dom .shared

/-- Another ATOMSC of the task and tile has no reply yet (R271). -/
def Task.serialBusy (t : Task) (site : Site) : Bool :=
  t.ops.any fun o => match o.instr with
    | .atomsc _ _ => o.firing.site == site && o.words.any fun w => w.stage == .sent || w.stage == .queued
    | _ => false

/-- The window instances of QPUT (R279), or the one instance of a word. -/
def OpRec.insts (o : OpRec) (j : Nat) : List InstKey :=
  match o.instr with
  | .qput f => (List.range (2 ^ queueLe f.lit)).map o.firing.instAt
  | _ => [o.firing.instAt j]

/-- A fetching bank operation performs, and its reply leaves. -/
def State.bankPerform (s : State) (id op j : Nat) (t : Task) (o : OpRec) (bop : BankOp) : State :=
  let i := o.instr
  let b := operand i o.firing 1 j
  match s.bankApply t (o.at j).pa (t.keyOf (accessOf i o.firing j)) bop b.word (operand i o.firing 2 j).word with
  | (old, fl, s1) => (s1.withOpWord id op j fun w => { w with stage := .sent }).reply id op j ⟨old, 0, fl, bankFormat bop b.fmt, []⟩

/-- An ATOMSC waits at its bank for the serialising token (R271). While none waited the token went round, and it may
be at any bank. -/
def State.awaitToken (s : State) (id op j bank : Nat) : State :=
  let s1 := s.withOpWord id op j fun w => { w with stage := .queued }
  let w : SerialWait := ⟨bank, id, op, j⟩
  if s1.serial.isEmpty then
    match s1.pick 512 with
    | (k, s2) => ({ s2 with serial := [w], serialBank := (s2.serialBank + k) % 512 }).push
        (.atomscTokenVisit ((s2.serialBank + k) % 512))
  else { s1 with serial := s1.serial ++ [w] }

/-! ### Locks (R272 to R275) -/

/-- A lock request at its bank (R272, R275). `none` says that the bank's queue of waiters is full. -/
def State.lockRequest (s : State) (id op j : Nat) (t : Task) (o : OpRec) : Option State :=
  let bank := bankOf (o.at j).pa
  let slot := bits (BitVec.ofNat 32 (o.at j).pa) 9 2
  if (o.at j).dropped then some (s.finishWord id op j [])
  else match s.locks.find? fun l => l.bank == bank && l.slot == slot with
    | none =>
      let l : Lock := ⟨bank, slot, id, o.firing.instAt j, []⟩
      some (({ s with locks := s.locks ++ [l] }).reply id op j ⟨lockId bank slot, 0, 0, 7, []⟩)
    | some l =>
      if l.task = id then some (s.reply id op j ⟨lockId bank slot, 3, 0, 7, [2]⟩)
      else if 64 ≤ ((s.locks.filter fun m => m.bank == bank).map fun m => m.waiters.length).sum then none
      else
        let r : Reader := ⟨id, op, j, t.tower⟩
        let mine := fun (m : Lock) => m.bank == bank && m.slot == slot
        let join := fun (m : Lock) => { m with waiters := m.waiters ++ [r] }
        some ({ s with locks := modifyWhere mine join s.locks }.withOpWord id op j fun w => { w with stage := .queued })

/-- LOCK_TILE_WAIT_END (R272). -/
def execLockTileWaitEnd (task op j : Nat) (s : State) : Result :=
  .next (s.onWord task op j .sent fun t o => (s.lockRequest task op j t o).getD s.block)

/-- LOCK_RELEASE (R274, R275): the bank takes the release, acknowledges it and grants the slot. -/
def execLockRelease (task op j : Nat) (s : State) : Result :=
  .next (s.onWord task op j .sent fun _ o =>
    let id := ((o.firing.a.map fun t => t.words.getD 1 0)).getD 0
    match s.locks.find? fun l => lockId l.bank l.slot == id && l.task == task with
    | some l => (s.reply task op j ⟨0, 0, 0, 7, []⟩).freeLock l
    | none => s.reply task op j ⟨id, 3, 0, 7, [1]⟩)

/-! ### Queues (R277 to R282) -/

/-- A queue's control line (R277). -/
structure QueueLine where
  le : Nat
  n : Nat
  wfmt : Word
  rbase : Nat
  head : Word
  tail : Word
  qid : Word
  deriving DecidableEq, Repr

def QueueLine.size (q : QueueLine) : Nat := 2 ^ q.le
def QueueLine.fmt (q : QueueLine) (k : Nat) : BitVec 3 := q.wfmt.extractLsb' (3 * k) 3

/-- The control line at an address, or `none` where it is invalid. -/
def State.queueLine (s : State) (a : Nat) : Option QueueLine :=
  let w := fun k => s.mem.readWord (a + 4 * k)
  let q : QueueLine := ⟨bits (w 0) 6 5, 2 ^ bits (w 0) 4 0, w 1, (w 2).toNat, w 3, w 4, w 5⟩
  let logn := bits (w 0) 4 0
  if a % 64 == 0 && bitsZero (w 0) 31 7 && 1 ≤ logn && logn ≤ 20 && bitsZero (w 1) 31 24 && (w 2).toNat % 64 == 0 && bitsZero (w 5) 31 16 &&
      ((List.range 10).all fun k => w (6 + k) == 0) &&
      (List.range 8).all fun k => if k < q.size then decide ((q.fmt k).toNat ≤ 5) else q.fmt k == 0 then some q
  else none

/-- The offset of word `k` of entry `t` from the control line, modulo 2^32 (R277). -/
def QueueLine.delta (q : QueueLine) (t : Word) (k : Nat) : Word := BitVec.ofNat 32 (q.rbase + (t.toNat % q.n) * 4 * q.size + 4 * k)

/-- The address of word `k` of entry `t` for an agent that reaches the control line by an address and not through a segment: an
offset that carries a task round modulo 2^32 to below the line carries such an agent below it too (R277, R428, R454). -/
def QueueLine.place (q : QueueLine) (line : Nat) (t : Word) (k : Nat) : Nat := (line + (q.delta t k).toInt).toNat

/-- The entries in use. -/
def QueueLine.used (q : QueueLine) : Nat := (q.tail - q.head).toNat

/-- The control line of a task's queue operation, with the checks against its literal and segment (R277). -/
def State.taskQueue (s : State) (t : Task) (o : OpRec) (j : Nat) : Option QueueLine :=
  let a := accessOf o.instr o.firing j
  match s.queueLine (o.at j).pa with
  | none => none
  | some q =>
    if q.le = queueLe o.instr.fields.lit ∧
        (a.off + BitVec.ofNat 32 q.rbase).toNat + q.n * 4 * q.size - 1 ≤ (t.segment a.seg).limit then some q
    else none

/-- An access of the task's own with its table walk made at once. -/
def State.addressNow (s : State) (t : Task) (tile : Option Nat) (types : List Nat) (a : Access) :
    Except (BitVec 8 × Nat) (Nat × BitVec 12 × State) :=
  match s.checkAccess t tile types a with
  | .ok pa key => .ok (pa, key, s)
  | .fault code va => .error (code, va)
  | .walk va =>
    match s.walk t.tcb.asid va with
    | none => .error (F_XLATE, va)
    | some (e, level) =>
      let s1 := s.fillTlb t.hoop tile t.tcb.asid va e (level == 2)
      match s1.checkAccess t tile types a with
      | .ok pa key => .ok (pa, key, s1)
      | .fault code va => .error (code, va)
      | .walk va => .error (F_XLATE, va)

/-- The physical addresses of an entry's words, from word `k` on. -/
def State.entryAddrs (s : State) (t : Task) (o : OpRec) (a : Access) (q : QueueLine) (e : Word) (k : Nat) :
    Nat → Except (Access × BitVec 8 × Nat) (List Nat × State)
  | 0 => .ok ([], s)
  | n + 1 =>
    let b := { a with off := a.off + q.delta e k }
    match s.addressNow t (tileOf o.firing.site) [typShm] b with
    | .error f => .error (b, f)
    | .ok (pa, _, s1) =>
      match s1.entryAddrs t o a q e (k + 1) n with
      | .error f => .error f
      | .ok (pas, s2) => .ok (pa :: pas, s2)

/-- Whether a request can be served now: it is the first of its kind at its queue, and an entry is free or
there. -/
def State.queueTurn (s : State) (q : QueueLine) (get : Bool) (line id op j : Nat) : Bool :=
  (match s.queueWaits.find? fun w => w.line == line && w.get == get with
   | some w => w.task == id && w.op == op && w.j == j
   | none => true) && (if get then q.used != 0 else decide (q.used < q.n))

/-- A queue request is served (R279, R280): its entry is written or read, TAIL or HEAD advances, and the reply
leaves. -/
def State.queueServe (s : State) (id op j : Nat) (t : Task) (o : OpRec) (q : QueueLine) : State :=
  let a := accessOf o.instr o.firing j
  let line := (o.at j).pa
  let get := match o.instr with
    | .qget _ => true
    | _ => false
  let s0 := ({ s with queueWaits := s.queueWaits.filter fun w => !(w.task == id && w.op == op && w.j == j) }).withOpWord id op j
    fun w => { w with stage := .sent }
  match s0.entryAddrs t o a q (if get then q.head else q.tail) 0 q.size with
  | .error (b, code, va) => (s0.endWord id op j).raiseAccess id o.firing.src o.firing.tag b code va
  | .ok (pas, s1) =>
    let slot := slotWriter t.slot
    let key := t.keyOf a
    if get then
      (s1.writeWords key slot [(line + 12, q.head + 1)]).reply id op j ⟨q.wfmt, 0, 0, 0, pas.map s1.mem.readWord⟩
    else
      let words := o.firing.win.map (·.word)
      ((s1.writeWords key slot (pas.zip words)).writeWords key slot [(line + 16, q.tail + 1)]).reply id op j ⟨q.tail, 0, 0, 0, []⟩

/-- The first word of a QPUT window whose format is not its position's. -/
def QueueLine.misfit (q : QueueLine) (win : List Gathered) : Option Gathered := win.find? fun w => w.fmt != q.fmt w.off

/-- A queue request reaches its control bank: it is judged, served, or waits (R277, R279 to R281). -/
def State.queueArrive (s : State) (id op j : Nat) (t : Task) (o : OpRec) : State :=
  let line := (o.at j).pa
  if (o.at j).dropped then s.finishWord id op j []
  else match s.taskQueue t o j with
    | none => s.reply id op j ⟨0, 4, 0, 0, []⟩
    | some q =>
      let get := match o.instr with
        | .qget _ => true
        | _ => false
      match q.misfit o.firing.win with
      | some w =>
        let g := o.firing
        (s.endWord id op j).raiseFmt id g.src ⟨{ g.tag with iter := g.tag.iter + BitVec.ofNat 12 w.off, port := 2, fmt := w.fmt }, [w.word]⟩ 0x09
          w.word
      | none =>
        if s.queueTurn q get line id op j then s.queueServe id op j t o q
        else
          let w : QueueWait := ⟨line, get, id, op, j, s.time.toNat + 16 * queueLimit o.instr.fields.lit⟩
          (({ s with queueWaits := s.queueWaits ++ [w] }).withOpWord id op j fun w => { w with stage := .queued }).pushAll
            [if get then .queueGetServe id op j else .queuePutServe id op j, .queueWaitExpire id op j]

/-- A waiting queue request that its control line serves now. A control line that has become invalid refuses it. -/
def State.queueServable (s : State) (t : Task) (o : OpRec) (get : Bool) (j : Nat) : Option (Option QueueLine) :=
  match s.taskQueue t o j with
  | none => some none
  | some q => if s.queueTurn q get (o.at j).pa t.id o.id j then some (some q) else none

def State.queueAnswer (s : State) (t : Task) (o : OpRec) (j : Nat) : Option QueueLine → State
  | none =>
    let waits := s.queueWaits.filter fun w => !(w.task == t.id && w.op == o.id && w.j == j)
    ({ s with queueWaits := waits }.withOpWord t.id o.id j fun w => { w with stage := .sent }).reply t.id o.id j ⟨0, 4, 0, 0, []⟩
  | some q => s.queueServe t.id o.id j t o q

/-- The wait of a queue request. -/
def State.queueWait? (s : State) (id op j : Nat) : Option QueueWait :=
  s.queueWaits.find? fun w => w.task == id && w.op == op && w.j == j

/-- A waiting queue request is tried again, up to its deadline (R281). -/
def State.queueRetry (s : State) (id op j : Nat) (get : Bool) : State :=
  s.onWord id op j .queued fun t o =>
    if (s.queueWait? id op j).any fun w => decide (w.deadline < s.time.toNat) then s.block
    else match s.queueServable t o get j with
      | some q => s.queueAnswer t o j q
      | none => s.block

/-- QUEUE_PUT_SERVE (R279) and QUEUE_GET_SERVE (R280). -/
def execQueuePutServe (task op j : Nat) (s : State) : Result := .next (s.queueRetry task op j false)
def execQueueGetServe (task op j : Nat) (s : State) : Result := .next (s.queueRetry task op j true)

/-- A waiting request expires (R281): it is answered with the queue's id, HEAD and TAIL as they stand. -/
def State.queueExpire (s : State) (w : QueueWait) : State :=
  let word := fun k => s.mem.readWord (w.line + 4 * k)
  ({ s with queueWaits := s.queueWaits.filter fun v => v != w }.withOpWord w.task w.op w.j fun x => { x with stage := .sent }).reply
    w.task w.op w.j ⟨0, 1, 0, 0, [word 5, word 3, word 4]⟩

/-- A request to a queue is on its way to its control line: what reaches the bank in a tick is applied before expiry is
judged (R281). -/
def State.queueAhead (s : State) (line : Nat) : Bool :=
  s.agenda.any fun x => match x with
    | .event (.bankOperation id op j) => match s.op? id op with
      | some (_, o) => (o.at j).pa == line && (match o.instr with
        | .qput _ | .qget _ => true
        | _ => false)
      | none => false
    | _ => false

/-- QUEUE_WAIT_EXPIRE (R281): a request that nothing can serve any more expires at its limit. -/
def execQueueWaitExpire (task op j : Nat) (s : State) : Result :=
  .next (s.onWord task op j .queued fun t o =>
    match s.queueWait? task op j with
    | none => s
    | some w =>
      if (s.queueServable t o w.get j).isSome || decide (s.time.toNat < w.deadline) || s.queueAhead w.line then s.block
      else s.queueExpire w)

/-- The first waiting request that its queue serves now is answered, as many times over as there are waits. -/
def State.serveQueues (s : State) : Nat → State
  | 0 => s
  | n + 1 =>
    let ready : Option (Task × OpRec × Nat × Option QueueLine) := s.queueWaits.findSome? fun w => match s.op? w.task w.op with
      | some (t, o) => (s.queueServable t o w.get w.j).map fun q => (t, o, w.j, q)
      | none => none
    match ready with
    | some (t, o, j, q) => (s.queueAnswer t o j q).serveQueues n
    | none => s

/-- At the end of a tick the requests that have reached their limit expire, once all that their queues serve is served
(R281). -/
def State.judgeQueues (s : State) : State :=
  if s.queueWaits.any fun w => decide (w.deadline ≤ s.time.toNat) then
    let s1 := s.serveQueues s.queueWaits.length
    (s1.queueWaits.filter fun w => decide (w.deadline ≤ s.time.toNat)).foldl State.queueExpire s1
  else s

/-- BANK_OPERATION (R73, R257, R271, R272, R277): a request reaches its bank. -/
def execBankOperation (task op j : Nat) (s : State) : Result :=
  .next (s.onWord task op j .sent fun t o =>
    match o.instr with
    | .lock _ => (s.lockRequest task op j t o).getD (s.push (.lockTileWaitEnd task op j))
    | .qput _ | .qget _ => s.queueArrive task op j t o
    | .atomsc _ _ => s.awaitToken task op j (bankOf (o.at j).pa)
    | i => match bankOpOf i with
      | some bop => s.bankPerform task op j t o bop
      | none => s)

/-- The ATOMSC operations that one visit of the token performs. -/
def State.performSerial (s : State) : List SerialWait → State
  | [] => s
  | w :: ws =>
    (match s.op? w.task w.op with
     | some (t, o) => match bankOpOf o.instr with
       | some bop => s.bankPerform w.task w.op w.j t o bop
       | none => s
     | none => s).performSerial ws

/-- ATOMSC_TOKEN_VISIT (R271): up to four waiting operations perform, in arrival order, and the token passes
on. -/
def execAtomscTokenVisit (bank : Nat) (s : State) : Result :=
  .next <|
    let mine := (s.serial.filter fun w => w.bank == bank).take 4
    let s1 := ({ s with serial := s.serial.filter fun w => !mine.contains w, serialBank := (bank + 1) % 512 }).performSerial mine
    if s1.serial.isEmpty then s1 else s1.push (.atomscTokenVisit ((bank + 1) % 512))

/-! ### Replies (R270) -/

/-- Count an LSID for every instance of a word. -/
def State.countInsts (s : State) (id : Nat) (o : OpRec) (j : Nat) : Except State State :=
  (o.insts j).foldl (fun r k => match r with
    | .error s1 => .error s1
    | .ok s1 => s1.countOr id o.firing.src o.firing.tag k (.lsid o.instr.fields.lsid)) (.ok s)

/-- The results of a word whose request was done. -/
def replyOuts (o : OpRec) (j : Nat) (r : BankReply) : List Out :=
  match o.instr with
  | .unlock _ => [operand o.instr o.firing 1 j]
  | .qget f => (List.range (2 ^ queueLe f.lit)).map fun k => .data (r.value.extractLsb' (3 * k) 3) (r.words.getD k 0)
  | _ => [.data r.fmt r.value]

/-- A LOCK token (R29, R272): it leaves at its word's iteration by itself. -/
def State.emitLock (s : State) (o : OpRec) (j : Nat) (id : Word) : State :=
  let g := o.firing
  s.emitControl g .keep { g.tag with iter := g.tag.iter + BitVec.ofNat 12 j } [o.instr.fields.t0] 7 [4, id]

/-- A reply that says the request was done. -/
def State.replyDone (s : State) (id op j : Nat) (t : Task) (o : OpRec) (r : BankReply) : State :=
  let i := o.instr
  let a := accessOf i o.firing j
  let g := o.firing
  match i with
  | .iwrite _ =>
    let b := operand i g 1 j
    s.afterStage id t o j a (s.stageOp g ⟨t.stageQuad g.site, g.instAt j, a.ident, wordOf (o.at j).pa, .write b.word b.fmt, none⟩
      (t.domainOf g.site) (t.lineClass a.seg (o.at j).pa)) fun s1 => s1.countFinish id o i j [b]
  | .lock _ => (s.active id).emitLock o j r.value |>.finishWord id op j []
  | _ =>
    if i.spec.counted then
      match s.countInsts id o j with
      | .error s1 => s1.endWord id op j
      | .ok s1 => s1.finishWord id op j (replyOuts o j r)
    else s.finishWord id op j (replyOuts o j r)

/-- A queue request has expired (R281). -/
def State.replyExpired (s : State) (id op j : Nat) (o : OpRec) (r : BankReply) : State :=
  let i := o.instr
  let a := accessOf i o.firing j
  if queueTrapt i.fields.lit = noTarget then
    (s.endWord id op j).raise id (.at F_QWAIT o.firing.src (accessDetail a o.firing.tag) (r.words.getD 0 0) (r.words.getD 1 0) (r.words.getD 2 0))
  else
    match (if i.spec.counted then s.countInsts id o j else .ok s) with
    | .error s1 => s1.endWord id op j
    | .ok s1 => (s1.withOpWord id op j fun w => { w with data := r.words }).finishWord id op j (nullOuts i)

/-- BANK_REPLY (R257, R260, R261, R270, R274, R275, R277, R281): a reply reaches its tile. The reply to a word
whose instance is gone is discarded. -/
def execBankReply (task op j : Nat) (r : BankReply) (s : State) : Result :=
  .next <|
    match s.op? task op with
    | none => s
    | some (t, o) =>
      let a := accessOf o.instr o.firing j
      if (o.at j).stage = .done then s
      else if (o.at j).dropped then
        s.finishWord task op j []
      else match r.status.toNat with
        | 0 => s.replyDone task op j t o r
        | 1 => s.replyExpired task op j o r
        | 2 => (s.endWord task op j).raise task (.at F_WONCE o.firing.src (accessDetail a o.firing.tag) a.off (r.words.getD 0 0) 0)
        | 3 =>
          let off := match o.instr with
            | .unlock _ => 0
            | _ => a.off
          (s.endWord task op j).raise task (.at F_LOCK o.firing.src (accessDetail a o.firing.tag) off r.value (r.words.getD 0 0))
        | _ => (s.endWord task op j).raiseAccess task o.firing.src o.firing.tag a F_SEG (t.shownVa a)

/-! ### QPUT (R279) -/

/-- A complete window of QPUT: the A and C words of its iterations. -/
def execQput (f : SForm) (s : State) : Result :=
  withFiring s fun g s =>
    let e := 2 ^ queueLe f.lit
    let null := (List.range e).any (fun j => (operand (.qput f) g 0 j).isNull) || g.win.any fun w => w.fmt == 7
    match s.beginOp (.qput f) g [⟨.waiting, 0, [], [], 0, [], 0, false, 0⟩] with
    | (op, s1) =>
      if null then
        match nullStep g s1 with
        | .error s2 => s2
        | .ok (s2, _) =>
          match (s2.op? g.task op) with
          | none => s2
          | some (_, o) =>
            match s2.countInsts g.task o 0 with
            | .error s3 => s3
            | .ok s3 => s3.finishWord g.task op 0 [.null]
      else
        match s1.fireWord g .i 1 with
        | .error s2 => s2
        | .ok s2 =>
          match s2.task? g.task with
          | none => s2
          | some t =>
            if s2.orderReady t (g.instAt 0) f.lsid false then s2.accessWord g.task op 0
            else s2.push (.loadOrderRelease g.task op 0)

end Sys2Proof.Machine
end

