-- ==== Sys2Proof/Machine/Engine.lean ====
section
/-!
DEFINITION. The engines of a tower (R409 to R432): commands from the engine port to their completion, copies,
landing windows, remote writes and atomics, collectives, host channels and links.
-/

namespace Sys2Proof.Machine

/-! ### Engines and their queues (R409, R412) -/

/-- The commands that a hoop's engine port has sent and that are not complete (R409). -/
def State.portUsed (s : State) (h : Nat) : Nat :=
  ((s.tasks.filter fun t => t.hoop == h && t.phase != .saved).map fun t =>
    ((t.ops.filter fun o => isCommand o.instr).map fun o =>
      (o.words.filter fun w => w.stage == .queued || w.stage == .sent).length).sum).sum

/-- The set of one word of a command: its results carry the word's iteration. -/
def Firing.word (g : Firing) (j : Nat) : Firing := { g with tag := { g.tag with iter := g.tag.iter + BitVec.ofNat 12 j } }

/-- A command emits to t0 and then to t1 (R410, R412). -/
def State.emitCommand (s : State) (i : Instr) (g : Firing) (j : Nat) (out0 out1 : Out) : State :=
  s.emitColumns (Firing.word g j) .keep i.fields.t0 i.fields.t1 [out0] [out1]

/-- The words of an ENG set, each one command that comes to the port (R410). -/
def State.portWords (i : Instr) (g : Firing) (op : Nat) (s : State) (j : Nat) : Nat → State
  | 0 => s
  | n + 1 =>
    if !s.runs g.task then s
    else if performs i g j then
      match s.fireWord g i.spec.cost i.spec.passes with
      | .error s1 => s1
      | .ok s1 => ((s1.withOpWord g.task op j fun w => { w with stage := .ready }).push (.enginePortDepart g.task op j)).portWords i g op (j + 1) n
    else match nullStep g s with
      | .error s1 => s1
      | .ok (s1, _) => ((s1.finishWord g.task op j []).emitCommand i g j .null .null).portWords i g op (j + 1) n

def portFiring (i : Instr) (g : Firing) (s : State) : State :=
  match s.beginOp i g (List.replicate g.n ⟨.waiting, 0, [], [], 0, [], 0, false, 0⟩) with
  | (op, s1) => s1.portWords i g op 0 g.n

/-- A command is over at its engine: its place and its leave are free. -/
def State.leaveEngine (s : State) (id op j : Nat) : State :=
  match s.op? id op with
  | none => s
  | some (t, o) =>
    let other := fun (r : Reader) => !(r.task == id && r.op == op && r.j == j)
    let s1 := match engineOf o.instr with
      | some e => s.withEngine t.tower e fun x => { x with queue := x.queue.filter other, running := x.running.filter other }
      | none => s
    if (o.at j).tick = 0 then s1
    else (s1.releaseLeave t.hoop t.lowQuad (o.at j).tick).withOpWord id op j fun w => { w with tick := 0 }

/-- The last write of a command has performed: its range is retired, and its work is done (R250). -/
def State.retireCommand (s : State) (id op j : Nat) : State :=
  let s1 := (s.leaveEngine id op j).dropWork id op j
  match s1.task? id with
  | none => s1
  | some t => s1.withHoop t.hoop fun h => { h with ranges := h.ranges.filter fun r => !(r.task == id && r.op == op && r.j == j) }

/-- A command ends without a result; what has left its engine performs (R412). -/
def State.endCommand (s : State) (id op j : Nat) : State :=
  let s1 := match s.work? id op j with
    | some w => s.performLines w fun _ => true
    | none => s
  ((s1.retireCommand id op j).withOpWord id op j fun w => { w with dropped := true }).finishWord id op j []

/-- A command completes (R412). Its results leave, unless its token left before (R311). -/
def State.completeCommand (s : State) (id : Nat) (o : OpRec) (j : Nat) (out0 out1 : Out) : State :=
  let told := (s.work? id o.id j).any (·.told)
  let s1 := s.retireCommand id o.id j
  if (o.at j).dropped || told then s1.finishWord id o.id j []
  else if (engineOf o.instr).isSome || (o.instr matches .lwopen _ | .lwclose _) then
    (s1.finishWord id o.id j []).emitCommand o.instr o.firing j out0 out1
  else s1.finishWord id o.id j [out0, out1]

/-- The completion token of a command whose writes have left it (R311). The command is at its engine no longer. -/
def State.tellCommand (s : State) (id : Nat) (o : OpRec) (j : Nat) : State :=
  let b := operand o.instr o.firing 1 j
  let s1 := s.leaveEngine id o.id j
  if (o.at j).dropped then s1 else s1.emitCommand o.instr o.firing j b b

/-- A fault of a command: the task takes it, and the command ends. -/
def State.failCommand (s : State) (id : Nat) (o : OpRec) (j : Nat) (a : Access) (code : BitVec 8) (va : Nat) : State :=
  (s.raiseAccess id .port o.firing.tag a code va).endCommand id o.id j

/-! ### Reads and writes of commands (R225, R296, R310) -/

def memoryTypes : List Nat := [typDram, typShm, typScr, typHost]

/-- A word that an engine reads, which checks no code (R431). A line whose key has been replaced can be read no more (R475):
what comes of it is a free value. -/
def State.memoryWord (s : State) (pa : Nat) (key : BitVec 12) : Word × State :=
  if s.lineKeyed pa key then (s.mem.readWord pa, s)
  else (BitVec.ofNat 32 (natOfBytes ((List.range 4).map fun k => Config.poisonedByte s.fresh (pa % 64 + k))), s.freshen)

/-- What the port reads of a descriptor: words as a load-like read of the task sees them (R231, R412). -/
def State.descriptorReads (s : State) (t : Task) (g : Firing) (seg : BitVec 4) (last : Option Nat) :
    List Word → Except State (List Word × State)
  | [] => .ok ([], s)
  | off :: rest =>
    let a : Access := ⟨seg, off, 4, false, false, 0⟩
    match s.addressNow t none memoryTypes a with
    | .error (code, va) => .error (s.raiseAccess t.id .port g.tag a code va)
    | .ok (pa, key, s1) =>
      let cls := if t.servedByStaging none pa 4 then LineClass.scratch else t.lineClass seg pa
      match (if last = some (lineOf pa) then .ok s1 else s1.debitLines g t.lowQuad cls 1) with
      | .error s2 => .error s2
      | .ok s2 =>
        match (if t.servedByStaging none pa 4 then (BitVec.ofNat 32 (natOfBytes (s2.readVisible t none pa 4)), s2) else s2.memoryWord pa key) with
        | (w, s3) => match s3.descriptorReads t g seg (some (lineOf pa)) rest with
          | .error s4 => .error s4
          | .ok (ws, s4) => .ok (w :: ws, s4)

/-- A word that an engine has read: its physical address, its value, and whether its line's code matched. -/
structure FetchedWord where
  pa : Nat
  word : Word
  good : Bool
  deriving DecidableEq, Repr

/-- What an engine reads: memory only, one line debited for each line of the command that it has not `seen` (R296, R412). The
answer holds the words and the lines seen. -/
def State.engineReads (s : State) (t : Task) (g : Firing) (seg : BitVec 4) (types : List Nat) (seen : List Nat) :
    List Word → Except State (List FetchedWord × List Nat × State)
  | [] => .ok ([], seen, s)
  | off :: rest =>
    let a : Access := ⟨seg, off, 4, false, false, 0⟩
    match s.addressNow t none types a with
    | .error (code, va) => .error (s.raiseAccess t.id .port g.tag a code va)
    | .ok (pa, key, s1) =>
      match (if seen.contains (lineOf pa) then .ok s1 else s1.debitLines g t.lowQuad (t.lineClass seg pa) 1) with
      | .error s2 => .error s2
      | .ok s2 => match s2.memoryWord pa key with
        | (w, s3) =>
          match s3.engineReads t g seg types (if seen.contains (lineOf pa) then seen else lineOf pa :: seen) rest with
          | .error s4 => .error s4
          | .ok (ws, lines, s4) => .ok (⟨pa, w, s2.lineGood pa key⟩ :: ws, lines, s4)

/-- Where the words of a command's result go: a segment, and an offset for each word. -/
structure Sink where
  seg : BitVec 4
  types : List Nat
  off : Nat → Word

def Sink.access (d : Sink) (k : Nat) : Access := ⟨d.seg, d.off k, 4, true, false, 0⟩

/-- The physical address of word `k` of a result, where it can be written. -/
def State.sinkPa (s : State) (t : Task) (d : Sink) (k : Nat) : Option Nat :=
  match s.addressNow t none d.types (d.access k) with
  | .ok (pa, _, _) => some pa
  | .error _ => none

/-- The words `ks` of a line with their addresses, and whether one of them comes from a line whose code failed. -/
def State.lineWords (s : State) (t : Task) (d : Sink) (val : Nat → State → Word × Bool × State) :
    List Nat → List (Nat × Word) × Bool × State
  | [] => ([], false, s)
  | k :: ks => match val k s with
    | (w, good, s1) => match s1.lineWords t d val ks with
      | (ws, bad, s2) => ((((s.sinkPa t d k).getD 0), w) :: ws, bad || !good, s2)

/-- The words of `todo` that lie in the line of word `k` leave the engine as one line, which is debited: the line, the words
left, and the state; or the state in which the command has stopped its task. -/
def State.sendLine (s : State) (t : Task) (g : Firing) (d : Sink) (val : Nat → State → Word × Bool × State) (todo : List Nat) (k : Nat) :
    Except State (OutLine × List Nat × State) :=
  match s.addressNow t none d.types (d.access k) with
  | .error (code, va) => .error (s.raiseAccess t.id .port g.tag (d.access k) code va)
  | .ok (pa, key, s1) =>
    let mine := fun (i : Nat) => i == k || (s1.sinkPa t d i).any fun a => lineOf a == lineOf pa
    match s1.debitLines g t.lowQuad (t.lineClass d.seg pa) 1 with
    | .error s2 => .error s2
    | .ok s2 => match s2.lineWords t d val (todo.filter mine) with
      | (ws, bad, s3) => .ok (⟨key, ws, bad, none⟩, todo.filter fun i => !mine i, s3)

/-- All words of `todo` leave the engine. -/
def State.sendLines (s : State) (t : Task) (g : Firing) (d : Sink) (val : Nat → State → Word × Bool × State) (todo : List Nat) :
    Nat → Except State (List OutLine × State)
  | 0 => .ok ([], s)
  | n + 1 =>
    match todo with
    | [] => .ok ([], s)
    | k :: _ => match s.sendLine t g d val todo k with
      | .error s1 => .error s1
      | .ok (l, rest, s1) => match s1.sendLines t g d val rest n with
        | .error s2 => .error s2
        | .ok (ls, s2) => .ok (l :: ls, s2)

/-! ### Copy, gather and scatter (R413 to R415) -/

/-- How the rows or elements of a move are placed. -/
inductive MoveForm where
  | copy (sstride dstride : Word)
  | gather (iseg : BitVec 4) (idxoff : Word)
  | scatter (iseg : BitVec 4) (idxoff : Word)
  deriving DecidableEq, Repr

/-- A descriptor of R413: `rows` rows or elements of `words` words. -/
structure Moves where
  form : MoveForm
  sseg : BitVec 4
  dseg : BitVec 4
  src : Word
  dst : Word
  words : Nat
  rows : Nat
  deriving DecidableEq, Repr

def Moves.total (m : Moves) : Nat := m.rows * m.words
def Moves.bytes (m : Moves) : Nat := 4 * m.total
def Moves.indexed (m : Moves) : Bool := match m.form with
  | .copy _ _ => false
  | _ => true

/-- The descriptor of a move, or `none` where a field is reserved or out of range. -/
def movesOf (i : Instr) (d : List Word) : Option Moves :=
  let w := fun k => d.getD k 0
  let m4 := fun (k : Nat) => (w k).toNat % 4 == 0
  let common := bitsZero (w 0) 19 16 && bitsZero (w 0) 11 0 && m4 1 && m4 2 && w 7 == 0
  let lesz := bits (w 0) 15 12
  match i with
  | .copy _ =>
    if common && bitsZero (w 0) 23 20 && lesz == 0 && decide (4 ≤ (w 3).toNat ∧ (w 3).toNat ≤ 2 ^ 24) && bitsZero (w 4) 31 16 &&
        m4 5 && m4 6 then
      some ⟨.copy (w 5) (w 6), (w 0).extractLsb' 28 4, (w 0).extractLsb' 24 4, w 1, w 2, (w 3).toNat / 4, bits (w 4) 15 0 + 1⟩
    else none
  | .gather _ | .scatter _ =>
    if common && decide (2 ≤ lesz ∧ lesz ≤ 12) && m4 3 && bitsZero (w 4) 31 24 && w 5 == 0 && w 6 == 0 then
      let iseg := (w 0).extractLsb' 20 4
      let form := if i matches .gather _ then MoveForm.gather iseg (w 3) else .scatter iseg (w 3)
      some ⟨form, (w 0).extractLsb' 28 4, (w 0).extractLsb' 24 4, w 1, w 2, 2 ^ lesz / 4, bits (w 4) 23 0 + 1⟩
    else none
  | _ => none

/-- The source and the destination offset of word `k` of a move. -/
def Moves.place (m : Moves) (idx : List Word) (k : Nat) : Word × Word :=
  let r := k / m.words
  let row := BitVec.ofNat 32 r
  let x := BitVec.ofNat 32 (4 * (k % m.words))
  let e := BitVec.ofNat 32 (4 * m.words)
  match m.form with
  | .copy ss ds => (m.src + row * ss + x, m.dst + row * ds + x)
  | .gather _ _ => (m.src + idx.getD r 0 * e + x, m.dst + row * e + x)
  | .scatter _ _ => (m.src + row * e + x, m.dst + idx.getD r 0 * e + x)

/-- Where an offset of a segment lies among virtual addresses; a scratchpad has none and stands for itself. -/
def Task.linear (t : Task) (seg : BitVec 4) (off : Word) : Nat :=
  let g := t.segment seg
  if g.typ = typScr then scratchBase t.hoop + g.base + off.toNat else g.va off

/-- The first and the last byte of a row of words at an offset, which may wrap modulo 2^32 (R414). -/
def Task.rowSpan (t : Task) (seg : BitVec 4) (off : Word) (words : Nat) : Nat × Nat :=
  if off.toNat + 4 * words ≤ 2 ^ 32 then (t.linear seg off, t.linear seg off + 4 * words - 1)
  else (t.linear seg 0, t.linear seg 0xFFFFFFFF)

/-- The first and the last byte that the rows of one side of a copy touch. -/
def Task.copySpan (t : Task) (m : Moves) (seg : BitVec 4) (off stride : Word) : Nat × Nat :=
  (List.range (m.rows - 1)).foldl (fun p r =>
    let q := t.rowSpan seg (off + BitVec.ofNat 32 (r + 1) * stride) m.words
    (Nat.min p.1 q.1, Nat.max p.2 q.2)) (t.rowSpan seg off m.words)

/-- The virtual byte ranges of a copy overlap (R414). -/
def Task.copyOverlaps (t : Task) (m : Moves) : Bool :=
  match m.form with
  | .copy ss ds =>
    let a := t.copySpan m m.sseg m.src ss
    let b := t.copySpan m m.dseg m.dst ds
    decide (a.1 ≤ b.2 ∧ b.1 ≤ a.2)
  | _ => false

/-- The scratchpad range that a move registers, when it writes its own hoop's scratchpad (R250, R415). -/
def Task.moveRange (t : Task) (m : Moves) : Option (Nat × Nat) :=
  if (t.segment m.dseg).typ = typScr then
    match m.form with
    | .copy _ ds => let p := t.copySpan m m.dseg m.dst ds
                    some (p.1, p.2 + 1)
    | .gather _ _ => let lo := t.linear m.dseg m.dst
                     some (lo, lo + m.bytes)
    | .scatter _ _ => let lo := t.linear m.dseg 0
                      some (lo, lo + (t.segment m.dseg).limit + 1)
  else none

/-! ### Remote writes and atomics: descriptors (R418, R420) -/

/-- A descriptor of R418. -/
structure RowsOut where
  sseg : BitVec 4
  nodes : List (BitVec 14)
  win : Nat
  src : Word
  words : Nat
  off : Nat
  deriving DecidableEq, Repr

/-- The node in one half of a node word. -/
def nodeAt (d : List Word) (k : Nat) : BitVec 14 := (d.getD (8 + k / 2) 0).extractLsb' (16 * (k % 2)) 14

def rowsOf (d : List Word) : Option RowsOut :=
  let w := fun k => d.getD k 0
  let n := bits (w 0) 19 16 + 1
  let m4 := fun (k : Nat) => (w k).toNat % 4 == 0
  if bitsZero (w 0) 27 20 && bitsZero (w 0) 15 10 && m4 1 && m4 2 && decide (4 ≤ (w 2).toNat ∧ (w 2).toNat ≤ 2 ^ 24) && m4 3 &&
      ((List.range 4).all fun k => w (4 + k) == 0) &&
      ((List.range 8).all fun k => bitsZero (w (8 + k)) 31 30 && bitsZero (w (8 + k)) 15 14) &&
      ((List.range 16).all fun k => decide (k < n) || nodeAt d k == 0) then
    some ⟨(w 0).extractLsb' 28 4, (List.range n).map (nodeAt d), bits (w 0) 9 0, w 1, (w 2).toNat / 4, (w 3).toNat⟩
  else none

def bankOpCode : Nat → Option BankOp
  | 0 => some .aadd
  | 1 => some .afadd
  | 2 => some .amin
  | 3 => some .amax
  | 4 => some .aminu
  | 5 => some .amaxu
  | 6 => some .aand
  | 7 => some .aor
  | 8 => some .axor
  | 9 => some .aswap
  | 10 => some .acas
  | 11 => some .afmin
  | 12 => some .afmax
  | _ => none

/-- A descriptor of R420: the operation, the node, the window, the offset and the operands. -/
def atomicOf (d : List Word) : Option (BankOp × BitVec 14 × Nat × Nat × Word × Word) :=
  let w := fun k => d.getD k 0
  match bankOpCode (bits (w 0) 31 28) with
  | none => none
  | some op =>
    if bitsZero (w 0) 13 10 && (w 1).toNat % 4 == 0 && (op == .acas || w 3 == 0) then
      some (op, (w 0).extractLsb' 14 14, bits (w 0) 9 0, (w 1).toNat, w 2, w 3)
    else none

/-! ### Collectives: descriptors (R421, R422) -/

structure Collective where
  form : Nat
  sseg : BitVec 4
  dseg : BitVec 4
  gseg : BitVec 4
  op : Nat
  dt : Nat
  src : Word
  dst : Word
  len : Nat
  goff : Word
  root : Nat
  round : Nat
  win : Nat
  deriving DecidableEq, Repr

def collForm : Instr → Nat
  | .allreduce _ => 0
  | .allgather _ => 1
  | .reducescatter _ => 2
  | _ => 3

def isColl : Instr → Bool
  | .allreduce _ | .allgather _ | .reducescatter _ | .broadcast _ => true
  | _ => false

def collectiveOf (i : Instr) (d : List Word) : Option Collective :=
  let w := fun k => d.getD k 0
  let m64 := fun (k : Nat) => (w k).toNat % 64 == 0
  if bitsZero (w 0) 19 14 && decide (bits (w 0) 13 12 < 3) && bitsZero (w 0) 11 10 && decide (bits (w 0) 9 8 < 2) &&
      bitsZero (w 0) 7 0 && m64 1 && m64 2 && m64 3 && decide ((w 3).toNat ≤ 2 ^ 24) && (w 4).toNat % 64 == 0 &&
      (collForm i == 3 || bitsZero (w 5) 31 16) && bitsZero (w 6) 31 10 && w 7 == 0 then
    some ⟨collForm i, (w 0).extractLsb' 28 4, (w 0).extractLsb' 24 4, (w 0).extractLsb' 20 4, bits (w 0) 13 12, bits (w 0) 9 8,
      w 1, w 2, (w 3).toNat, w 4, bits (w 5) 31 16, bits (w 5) 15 0, bits (w 6) 9 0⟩
  else none

/-- A group descriptor (R421): this member's rank, the group id and the nodes of the members. -/
structure Group where
  rank : Nat
  gid : Word
  nodes : List (BitVec 14)
  deriving DecidableEq, Repr

def groupOf (d : List Word) : Option Group :=
  let w := fun k => d.getD k 0
  let n := bits (w 0) 11 0 + 1
  if bitsZero (w 0) 31 28 && bitsZero (w 0) 15 12 && decide (2 ≤ n) && decide (bits (w 0) 27 16 < n) &&
      ((List.range n).all fun m => bitsZero (w (2 + m)) 31 14) then
    some ⟨bits (w 0) 27 16, w 1, (List.range n).map fun m => (w (2 + m)).extractLsb' 0 14⟩
  else none

/-- The words of a member's source (R423). -/
def Collective.sourceWords (c : Collective) (g : Group) : Nat :=
  match c.form with
  | 2 => g.nodes.length * (c.len / 4)
  | 3 => if g.rank = c.root then c.len / 4 else 0
  | _ => c.len / 4

/-- The words of a member's destination (R423). -/
def Collective.destWords (c : Collective) (n : Nat) : Nat := if c.form = 1 then n * (c.len / 4) else c.len / 4

/-- The bytes a collective moves at a member. -/
def Collective.bytes (c : Collective) (n : Nat) : Nat := 4 * Nat.max (c.destWords n) (if c.form = 2 then n * (c.len / 4) else 0)

/-- What R421 and R422 ask of a collective together with its group: the root is a member, and a destination is a landing
window exactly where one is named. -/
def Task.collectiveOk (t : Task) (node : BitVec 14) (c : Collective) (g : Group) : Bool :=
  let land := (t.segment c.dseg).typ == typLand
  decide (c.root < g.nodes.length) && (land || (c.win == 0 && g.nodes.all fun n => n == node))

/-! ### Departure (R411, R412) -/

/-- The bytes that an instruction's descriptor takes. -/
def descriptorSize : Instr → Nat
  | .remwr _ => 64
  | .rematom _ => 16
  | _ => 32

/-- The control word of a command, and its descriptor's place. -/
def controlWord (o : OpRec) (j : Nat) : Word := (operand o.instr o.firing 0 j).word
def descriptorAccess (o : OpRec) (j : Nat) : Access :=
  ⟨engDseg (controlWord o j), (operand o.instr o.firing 1 j).word, 4, false, false, 0⟩

/-- The bytes of a command that states a step (R376), and `none` where its descriptor is defective. REMWR and REMATOM
state none; those of a collective are known once its group is read. -/
def commandBytes (i : Instr) (d : List Word) : Option Nat :=
  match i with
  | .copy _ | .gather _ | .scatter _ => (movesOf i d).map Moves.bytes
  | .remwr _ => (rowsOf d).map fun _ => 0
  | .rematom _ => (atomicOf d).map fun _ => 0
  | _ => (collectiveOf i d).map fun c => ((groupOf (d.drop 8)).map fun g => c.bytes g.nodes.length).getD 0

/-- The step of a bulk command (R376): 1.0 A. -/
def State.bulkStep (s : State) (t : Task) : Nat := s.leaveStep t.hoop t.lowQuad 8

/-- A command with a sound descriptor joins its engine's queue, and asks for leave when it moves 64 KiB or more. -/
def State.enqueueCommand (s : State) (id : Nat) (t : Task) (o : OpRec) (j e : Nat) (d : List Word) (bytes : Nat) : State :=
  let r : Reader := ⟨id, o.id, j, t.tower⟩
  let s1 := (s.withOpWord id o.id j fun w => { w with stage := .queued, data := d }).withEngine t.tower e fun x =>
    { x with queue := x.queue ++ [r] }
  (if 65536 ≤ bytes then s1.askLeave t.hoop t.lowQuad r (s.bulkStep t) else s1).push (.engineCommandStart t.tower e)

/-- The offsets of `n` words from an offset. -/
def wordOffsets (off : Word) (n : Nat) : List Word := (List.range n).map fun k => off + BitVec.ofNat 32 (4 * k)

/-- The group descriptor of a collective, which its engine reads (R421): its words, the lines read, and the state. -/
def State.readGroup (s : State) (t : Task) (g : Firing) (c : Collective) : Except State (List Word × List Nat × State) :=
  match s.engineReads t g c.gseg [typDram, typShm, typScr] [] (wordOffsets c.goff 2) with
  | .error s1 => .error s1
  | .ok (head, seen, s1) =>
    let n := bits ((head.head?.map (·.word)).getD 0) 11 0 + 1
    match s1.engineReads t g c.gseg [typDram, typShm, typScr] seen (wordOffsets (c.goff + 8) n) with
    | .error s2 => .error s2
    | .ok (rest, lines, s2) => .ok ((head ++ rest).map (·.word), lines, s2)

/-- A command leaves the engine port (R411, R412): its control word and descriptor are judged. -/
def State.departCommand (s : State) (id : Nat) (t : Task) (o : OpRec) (j e : Nat) : State :=
  let i := o.instr
  let a := descriptorAccess o j
  let ctl := controlWord o j
  let size := descriptorSize i
  if !(if isColl i then engReservedOk ctl else engCtlOk ctl) || a.off.toNat % size != 0 then s.failCommand id o j a F_SEG 0
  else match s.descriptorReads t o.firing a.seg none (wordOffsets a.off (size / 4)) with
    | .error s1 => s1.endCommand id o.id j
    | .ok (d, s1) =>
      match commandBytes i d with
      | some n => s1.enqueueCommand id t o j e d n
      | none => s1.failCommand id o j a F_SEG 0

/-! ### Landing windows (R416, R417) -/

def State.window? (s : State) (win : Nat) : Option LandWindow := s.landWindows.find? fun w => w.win == win

/-- LWOPEN at the port (R416). -/
def State.openWindow (s : State) (id : Nat) (t : Task) (o : OpRec) (j : Nat) : State :=
  let w := (operand o.instr o.firing 0 j).word
  let win := (operand o.instr o.firing 1 j).word.toNat
  let g := t.segment (lwSeg w)
  let a : Access := ⟨lwSeg w, BitVec.ofNat 32 win, 4, true, false, 0⟩
  if !lwopenCtlOk w || g.typ != typLand || !g.w || decide (1023 < win) then s.failCommand id o j a F_SEG 0
  else if (s.window? win).isSome then s.completeCommand id o j (.data 0 0) (.data 0 0)
  else ({ s with landWindows := s.landWindows ++ [(⟨win, lwKind w == 1, g.base, g.limit, g.key, t.tcb.asid⟩ : LandWindow)] }).completeCommand id o j
    (.data 0 1) (.data 0 1)

/-- The 64 KiB pages of a window: their virtual and physical addresses. -/
def State.windowPages (s : State) (w : LandWindow) : List (Nat × Nat) :=
  (List.range (w.limit / 2 ^ 16 + 2)).filterMap fun k =>
    let va := (w.base / 2 ^ 16 + k) * 2 ^ 16
    match s.translate w.asid (va % 2 ^ 57) true none with
    | .ok pa => if va ≤ w.base + w.limit then some (va, pa) else none
    | _ => none

/-- The provisional words of a window, which are those from BASE to BASE + LIMIT. -/
def State.windowProvisional (s : State) (w : LandWindow) : List WordState :=
  let pages := s.windowPages w
  s.words.filter fun x => x.code == .provisional && pages.any fun p =>
    p.2 == x.addr - x.addr % 2 ^ 16 && (let va := p.1 + x.addr % 2 ^ 16
      decide (w.base ≤ va + 3 ∧ va ≤ w.base + w.limit))

/-- LWCLOSE (R417). -/
def State.closeWindow (s : State) (id : Nat) (t : Task) (o : OpRec) (j : Nat) : State :=
  match s.window? (operand o.instr o.firing 0 j).word.toNat with
  | none => s.completeCommand id o j (.data 0 0) .none
  | some w =>
    if w.asid != t.tcb.asid then s.completeCommand id o j (.data 0 0) .none
    else if (s.windowProvisional w).isEmpty then
      ({ s with landWindows := s.landWindows.filter fun x => x.win != w.win }).completeCommand id o j (.data 0 1) .none
    else (s.withOpWord id o.id j fun w => { w with stage := .queued }).push (.engineCommandComplete id o.id j)

/-! ### Commands that begin (R412) -/

/-- The commands before a command in its own set, and what a FENCE in its place would wait for, have performed at its acquire
scope (R311). -/
def State.acquired (s : State) (t : Task) (o : OpRec) (j : Nat) : Bool :=
  let sc := engAsc (controlWord o j)
  !s.fencePending t o.id sc && (List.range j).all fun i => s.performedAt t o i sc

/-- The scratchpad range a command registers. -/
def Task.commandRange (t : Task) (o : OpRec) (j : Nat) : Option (Nat × Nat) :=
  let d := (o.at j).data
  match o.instr with
  | .copy _ | .gather _ | .scatter _ => (movesOf o.instr d).bind t.moveRange
  | _ =>
    match collectiveOf o.instr d, groupOf (d.drop 8) with
    | some c, some g =>
      if isColl o.instr && (t.segment c.dseg).typ == typScr then
        let lo := t.linear c.dseg c.dst
        some (lo, lo + 4 * c.destWords g.nodes.length)
      else none
    | _, _ => none

/-- The group of a collective has not been read. -/
def groupless (i : Instr) (d : List Word) : Bool := isColl i && decide (d.length ≤ 8)

/-- A queued command may begin: it has its leave, its acquire is done, and a range entry is free for it. A collective that has
not read its group may read it once its acquire is done; its range waits for its result. -/
def State.mayBegin (s : State) (r : Reader) : Bool :=
  match s.op? r.task r.op with
  | none => false
  | some (t, o) =>
    let bulk := match commandBytes o.instr (o.at r.j).data with
      | some n => decide (65536 ≤ n)
      | none => false
    (!bulk || (o.at r.j).tick != 0) && (!engAcq (controlWord o r.j) || s.acquired t o r.j) &&
      (isColl o.instr || (t.commandRange o r.j).isNone || decide ((s.hoop t.hoop).ranges.length < 32))

/-- The hoop, within its tower, that a command came from. -/
def State.commandHoop (s : State) (r : Reader) : Nat :=
  match s.task? r.task with
  | some t => t.hoop % 16
  | none => 16

/-- The next command of an engine in round-robin order of hoops: the oldest of its hoop. -/
def State.nextCommand (s : State) (x : Engine) : Option (Nat × Reader) :=
  ((List.range 16).map fun k => (x.nextHoop + k) % 16).findSome? fun h =>
    (x.queue.find? fun r => s.commandHoop r == h).bind fun r => if s.mayBegin r then some (h, r) else none

/-- The range that a command registers before its first write (R250, R415). -/
def State.takeRange (s : State) (t : Task) (o : OpRec) (j : Nat) : State :=
  match t.commandRange o j with
  | some (lo, hi) => s.withHoop t.hoop fun h => { h with ranges := h.ranges ++ [(⟨lo, hi, t.id, o.id, j⟩ : Range)] }
  | none => s

/-- The places of a list whose words came from a line with a code that does not match. -/
def badPlaces (ws : List FetchedWord) : List Nat := (ws.zipIdx.filter fun x => !x.1.good).map (·.2)

/-- A command has `n` parts of its result to write. -/
def State.addWork (s : State) (id op j n : Nat) (bad : List Nat) : State :=
  { s with works := s.works ++ [⟨id, op, j, List.range n, bad, [], false, []⟩] }

/-- A move begins: its index words and its source words are read, and its range is registered. -/
def State.beginMove (s : State) (id : Nat) (t : Task) (o : OpRec) (j : Nat) (m : Moves) (d : List Word) : State :=
  let idx : Except State (List FetchedWord × List Nat × State) := match m.form with
    | .copy _ _ => .ok ([], [], s)
    | .gather iseg off | .scatter iseg off => s.engineReads t o.firing iseg memoryTypes [] (wordOffsets off m.rows)
  match idx with
  | .error s1 => s1.endCommand id o.id j
  | .ok (ix, seen, s1) =>
    let index := ix.map (·.word)
    match s1.engineReads t o.firing m.sseg memoryTypes seen ((List.range m.total).map fun k => (m.place index k).1) with
    | .error s2 => s2.endCommand id o.id j
    | .ok (ws, _, s2) =>
      (((s2.takeRange t o j).withOpWord id o.id j fun w =>
        { w with stage := .sent, data := d ++ index ++ ws.map (·.word) }).addWork id o.id j m.total (badPlaces ws)).push
        (.engineCommandComplete id o.id j)

/-- A receiver of the task's rows (R306). -/
def Task.addReceiver (t : Task) (n : BitVec 14) : Task :=
  if t.receivers.any fun r => r.node == n then t else { t with receivers := t.receivers ++ [⟨n, false⟩] }

/-- Cut words at every 256-byte boundary of window offset (R419). -/
def cutRows (off : Nat) (ws : List Word) : Nat → List (Nat × List Word)
  | 0 => []
  | n + 1 =>
    if ws.isEmpty then []
    else
      let k := (256 - off % 256) / 4
      (off, ws.take k) :: cutRows (off + 4 * k) (ws.drop k) n

/-- A message of a command leaves for a node: into the package itself, or out of it. -/
def State.dispatch (s : State) (node : BitVec 14) (own : Instr) (out : OutMsg) : State :=
  if node = s.node then s.push own else s.sendLink out

/-- An F_CHECK at an exit port (R431, R484). Which port a line leaves by is not stated. -/
def State.raiseExit (s : State) (id : Nat) (tag : Tag) (node : BitVec 14) (pa : Nat) : State :=
  match s.pick 18 with
  | (p, s1) => s1.raise id (.at F_CHECK .port (BitVec.ofNat 8 p ++ (0 : BitVec 3) ++ tag.blk ++ tag.inst ++ (0 : BitVec 7))
      (node.zeroExtend 32) (BitVec.ofNat 32 pa) (BitVec.ofNat 32 (pa / 2 ^ 32 % 2 ^ 16)))

/-- A write leaves without being performed at any scope, or past the ordering point of its release scope (R311): a command
without REL, or one that writes outside that scope, emits its completion token when its last write has left it. -/
def State.loose (t : Task) (o : OpRec) (j : Nat) (a : Nat) : Bool :=
  let ctl := controlWord o j
  !engRel ctl || t.outside (engRsc ctl) a

/-- The rows of a REMWR have left its engine: the completion token may leave with them, where the release rule lets it (R311);
the command completes when every row is acknowledged (R419). -/
def State.tellRows (s : State) (id : Nat) (o : OpRec) (j : Nat) (m : RowsOut) : State :=
  let ctl := controlWord o j
  if !engRel ctl || (decide (engRsc ctl ≤ 2) && m.nodes.all fun n => n != s.node) then
    match s.pick 2 with
    | (0, s1) => s1
    | (_, s1) => { (s1.tellCommand id o j) with works := (s1.tellCommand id o j).works ++ [⟨id, o.id, j, [], [], [], true, []⟩] }
  else s

/-- REMWR begins (R419): every row goes to every receiver. -/
def State.beginRows (s : State) (id : Nat) (t : Task) (o : OpRec) (j : Nat) (m : RowsOut) : State :=
  match s.engineReads t o.firing m.sseg memoryTypes [] (wordOffsets m.src m.words) with
  | .error s1 => s1.endCommand id o.id j
  | .ok (ws, _, s1) =>
    let bad := ws.find? fun x => !x.good
    let away := m.nodes.find? fun n => n != s.node
    match bad, away with
    | some x, some n => (s1.raiseExit id o.firing.tag n x.pa).endCommand id o.id j
    | _, _ =>
      let rows := cutRows m.off (ws.map (·.word)) m.words
      let good := fun (r : Nat × List Word) => ((ws.drop ((r.1 - m.off) / 4)).take r.2.length).all (·.good)
      let lines := (rows.map fun r => (4 * r.2.length + 63) / 64).sum * m.nodes.length
      let cls := t.lineClass m.sseg ((ws.head?.map (·.pa)).getD 0)
      match s1.debitLines o.firing t.lowQuad cls lines with
      | .error s2 => s2.endCommand id o.id j
      | .ok s2 =>
        let s3 := (s2.withTask id fun t => { m.nodes.foldl Task.addReceiver t with rowsSent := true }).withOpWord id o.id j fun w =>
          { w with stage := .sent, pending := rows.length * m.nodes.length }
        m.nodes.foldl (fun s n => rows.foldl (fun s r =>
          let row : Row := ⟨⟨s.node, id⟩, o.id, j, t.tcb.asid, n, m.win, r.1, r.2, good r⟩
          s.dispatch n (.rowLanding row) (.row row)) s) (s3.tellRows id o j m)

/-- The engine reads the group of a collective (R421), which is judged and then waits for its leave (R376). -/
def State.beginGroup (s : State) (r : Reader) (t : Task) (o : OpRec) (c : Collective) : State :=
  match s.readGroup t o.firing c with
  | .error s1 => s1.endCommand r.task r.op r.j
  | .ok (ws, _, s1) =>
    match groupOf ws with
    | some g =>
      if t.collectiveOk s.node c g then
        let s2 := s1.withOpWord r.task r.op r.j fun w => { w with data := w.data ++ ws }
        (if 65536 ≤ c.bytes g.nodes.length then s2.askLeave t.hoop t.lowQuad r (s.bulkStep t) else s2).push
          (.engineCommandStart t.tower 2)
      else s1.failCommand r.task o r.j (descriptorAccess o r.j) F_SEG 0
    | none => s1.failCommand r.task o r.j (descriptorAccess o r.j) F_SEG 0

/-- The lines that a collective's group was read from. -/
def State.groupLines (s : State) (t : Task) (c : Collective) (n : Nat) : List Nat :=
  (wordOffsets c.goff (2 + n)).filterMap fun off => match s.addressNow t none [typDram, typShm, typScr] ⟨c.gseg, off, 4, false, false, 0⟩ with
    | .ok (pa, _, _) => some (lineOf pa)
    | .error _ => none

/-- A collective begins (R423, R424): the member's contribution goes to every package that holds a member. It awaits an answer
of each: of its own package, that its result is written, and of another, that its engine has read the contribution (R425). -/
def State.beginCollective (s : State) (id : Nat) (t : Task) (o : OpRec) (j : Nat) (c : Collective) (g : Group) : State :=
  match s.engineReads t o.firing c.sseg [typDram, typShm, typScr] (s.groupLines t c g.nodes.length) (wordOffsets c.src (c.sourceWords g)) with
  | .error s1 => s1.endCommand id o.id j
  | .ok (ws, _, s1) =>
    let nodes := g.nodes.eraseDups
    let away := nodes.filter fun n => n != s.node
    match ws.find? (fun x => !x.good), away with
    | some x, n :: _ => (s1.raiseExit id o.firing.tag n x.pa).endCommand id o.id j
    | _, _ =>
      match s1.debitLines o.firing t.lowQuad (t.lineClass c.sseg ((ws.head?.map (·.pa)).getD 0))
          ((4 * ws.length + 63) / 64 * away.length) with
      | .error s2 => s2.endCommand id o.id j
      | .ok s2 =>
        let k : Contribution := ⟨⟨s.node, id⟩, o.id, j, g.gid, c.round, g.rank, g.nodes.length, c.form, c.op, c.dt, c.len, c.root,
          ws.map (·.word), false, ws.all (·.good)⟩
        let land := (t.segment c.dseg).typ == typLand
        let other := fun (r : Reader) => !(r.task == id && r.op == o.id && r.j == j)
        let s3 := ((s2.withTask id fun t => { nodes.foldl Task.addReceiver t with rowsSent := t.rowsSent || land }).withOpWord id o.id j
          fun w => { w with stage := .queued, pending := nodes.length }).withEngine t.tower 2 fun x => { x with running := x.running.filter other }
        nodes.foldl (fun s n => s.dispatch n (.collContribution k) (.contribution n k)) s3

/-- A command of an engine begins. -/
def State.beginCommand (s : State) (r : Reader) : State :=
  match s.op? r.task r.op with
  | none => s
  | some (t, o) =>
    let d := (o.at r.j).data
    match o.instr with
    | .copy _ | .gather _ | .scatter _ =>
      match movesOf o.instr d with
      | some m => s.beginMove r.task t o r.j m d
      | none => s
    | .remwr _ =>
      match rowsOf d with
      | some m => s.beginRows r.task t o r.j m
      | none => s
    | .rematom _ =>
      match atomicOf d with
      | some (op, node, win, off, b, c) =>
        let m : RemoteAtomic := ⟨⟨s.node, r.task⟩, r.op, r.j, t.tcb.asid, node, win, off, op, b, c⟩
        (s.withOpWord r.task r.op r.j fun w => { w with stage := .sent, pending := 1 }).dispatch node (.remoteAtomicReceive m) (.atomic m)
      | none => s
    | i =>
      match collectiveOf i d, groupOf (d.drop 8) with
      | some c, some g => s.beginCollective r.task t o r.j c g
      | _, _ => s

/-- The collective at the head of its hoop's commands has yet to read its group. -/
def State.awaitsGroup (s : State) (r : Reader) : Option (Task × OpRec × Collective) :=
  match s.op? r.task r.op with
  | some (t, o) => if groupless o.instr (o.at r.j).data then (collectiveOf o.instr (o.at r.j).data).map fun c => (t, o, c) else none
  | none => none

/-- ENGINE_COMMAND_START (R409, R412). A frozen engine has suspended its queue (R335). -/
def execEngineCommandStart (tower engine : Nat) (s : State) : Result :=
  .next <|
    let x := s.engine tower engine
    if x.queue.isEmpty then s
    else if x.frozen != .none || decide (8 ≤ x.running.length) then s.block
    else match s.nextCommand x with
      | none => s.block
      | some (h, r) => match s.awaitsGroup r with
        | some (t, o, c) => s.beginGroup r t o c
        | none => (s.withEngine tower engine fun x => { x with
          queue := x.queue.filter fun q => q != r, running := x.running ++ [r], nextHoop := (h + 1) % 16 }).beginCommand r

/-! ### Commands that run and complete (R412, R414, R425) -/

/-! ### Acknowledgements (R306, R419, R426) -/

/-- What a receiver answers goes back to the sender. -/
def State.answer (s : State) (x : Sender) (own : Instr) (out : OutMsg) : State :=
  if x.node = s.node then s.push own else s.sendLink out
def State.landed (s : State) (x : Sender) (op j : Nat) : State :=
  s.answer x (.landingAck x.task op j s.node) (.landingAck x op j)

/-- A node is frozen by a violation, as FREEZE of KIND 2 freezes it (R335, R419). -/
def State.freezeNode (s : State) (n : BitVec 14) : State :=
  let others := s.frozenNodes.filter fun (x : BitVec 14 × Freeze) => x.1 != n
  { s with frozenNodes := others ++ [(n, Freeze.byViolation)] }
def State.nodeFrozen (s : State) (n : BitVec 14) : Bool := s.frozenNodes.any fun x => x.1 == n

/-- A node's traffic is held: the node is frozen (R479), or it would come over a link while the part accepts nothing
(R471, R472). -/
def State.nodeHeld (s : State) (n : BitVec 14) : Bool :=
  s.nodeFrozen n || (n != s.node && (!s.up || s.node == 0x3FFF))

/-- A rejection: a failure acknowledgement, and for a violation the sending node is frozen (R419). -/
def State.rejected (s : State) (x : Sender) (op j : Nat) (reason : BitVec 8) : State :=
  let s1 := s.answer x (.failureAck x.task op j s.node reason) (.failureAck x op j reason)
  if violatesWindow reason && x.node != s.node then s1.freezeNode x.node else s1

/-- The record of F_REMOTE (R426). -/
def remoteCause (tag : Tag) (fails : List (BitVec 14 × BitVec 8)) : Cause :=
  let node : Nat → BitVec 14 := fun k => ((fails[k]?).map (·.1)).getD 0
  .at F_REMOTE .port (((fails.head?.map (·.2)).getD 0) ++ (0 : BitVec 3) ++ tag.blk ++ tag.inst ++ (0 : BitVec 7))
    (BitVec.ofNat 16 (Nat.min fails.length 0xFFFF) ++ (0 : BitVec 2) ++ node 0)
    ((0 : BitVec 2) ++ node 1 ++ (0 : BitVec 2) ++ node 2) ((0 : BitVec 2) ++ node 3 ++ (0 : BitVec 2) ++ node 4)

/-- The quadrants of a task are frozen as a master, with their state kept (R343). -/
def State.freezeTask (s : State) (id : Nat) : State :=
  match s.task? id with
  | none => s
  | some t => if t.frozen = .byViolation || t.phase.committed then s
    else (s.withTask id fun t => { t with frozen := .byViolation }).holdDomains t

/-- A receiver's failure reaches the task that sent the command (R426): the task takes F_REMOTE, or the record that it has taken
for that command lists one more receiver. -/
def State.noteFailure (s : State) (id op j : Nat) (tag : Tag) (node : BitVec 14) (reason : BitVec 8) : State :=
  let first := remoteCause tag [(node, reason)]
  match (s.task? id).bind (·.failing) with
  | some (op', j', fs) =>
    if op' = op ∧ j' = j then
      if fs.any fun f => f.1 == node then s
      else
        let c := remoteCause tag (fs ++ [(node, reason)])
        let update := fun (c0 : Cause) => if c0.code = F_REMOTE then { c0 with d1 := c.d1, d2 := c.d2, d3 := c.d3 } else c0
        s.withTask id fun t => { t with failing := some (op, j, fs ++ [(node, reason)]), cause := t.cause.map update }
    else s.raise id first
  | none =>
    let s1 := s.raise id first
    let stands := ((s1.task? id).bind (·.cause)).any fun c => c.code == F_REMOTE && c.d0 == first.d0 && c.d1 == first.d1
    if stands then s1.withTask id fun t => { t with failing := some (op, j, [(node, reason)]) } else s1

/-- A failure, and what it freezes: a violation within the package freezes the task's own quadrants (R419). -/
def State.takeFailure (s : State) (id op j : Nat) (tag : Tag) (node : BitVec 14) (reason : BitVec 8) : State :=
  let s1 := s.noteFailure id op j tag node reason
  if violatesWindow reason && node == s.node then s1.freezeTask id else s1

/-- Every answer to a command has come: it completes, or ends where one was a failure. -/
def State.allAnswered (s : State) (id op j : Nat) : State :=
  match s.op? id op with
  | none => s
  | some (t, o) =>
    let w := o.at j
    if w.pending != 0 then s
    else if w.fails.isEmpty && !t.phase.leaving then
      s.completeCommand id o j (operand o.instr o.firing 1 j) (operand o.instr o.firing 1 j)
    else s.endCommand id op j

/-- LANDING_ACK (R306, R419): it counts toward its command's completion. Operation 0 is the acknowledgement of a commit or
abort token. -/
def execLandingAck (task op j : Nat) (node : BitVec 14) (s : State) : Result :=
  .next <|
    if op = 0 then
      s.withTask task fun t => { t with receivers := modifyWhere (fun (r : Receiver) => r.node == node) (fun r => { r with owed := false }) t.receivers }
    else
      match s.op? task op with
      | none => s
      | some (_, o) =>
        if (o.at j).stage = .done then s
        else (((s.active task).withOpWord task op j fun w => { w with pending := w.pending - 1 })).allAnswered task op j

/-- FAILURE_ACK (R306, R419, R420, R424, R426). The command may have ended with the task's first failure. -/
def execFailureAck (task op j : Nat) (node : BitVec 14) (reason : BitVec 8) (s : State) : Result :=
  .next <|
    let late := if (((s.task? task).bind (·.failing)).any fun f => f.1 == op && f.2.1 == j) then
      s.takeFailure task op j ⟨0, 0, 0, 0, 0, 0, 0, 0, none⟩ node reason else s
    match s.op? task op with
    | none => late
    | some (_, o) =>
      let w := o.at j
      if w.stage = .done then late
      else
        let fails := if w.fails.any fun f => f.1 == node then w.fails else w.fails ++ [(node, reason)]
        ((s.withOpWord task op j fun w => { w with pending := w.pending - 1, fails := fails }).takeFailure task op j o.firing.tag node
          reason).allAnswered task op j

/-! ### Rows at their receiver (R306, R419) -/

/-- The words of a row, translated under the window's address space (R419 step 1). -/
def State.rowAddrs (s : State) (w : LandWindow) (off : Nat) : Nat → Except (BitVec 8) (List Nat)
  | 0 => .ok []
  | n + 1 =>
    match s.translate w.asid ((w.base + off) % 2 ^ 57) true (some w.key) with
    | .ok pa =>
      if !(regionOf pa).structured then .error 7
      else match s.rowAddrs w (off + 4) n with
        | .ok pas => .ok (pa :: pas)
        | .error e => .error e
    | .prot => .error 7
    | _ => .error 6

/-- The word may not take a row: it is full, or provisional under another sender. -/
def State.wordTaken (s : State) (owner : Owner) (a : Nat) : Bool :=
  match s.wordAt a with
  | none => false
  | some w => match w.code with
    | .full => true
    | .deferred => false
    | .provisional => w.owner != some owner

/-- Words land in a window (R419), provisional under an owner, or are refused with a reason. -/
def State.land (s : State) (owner : Owner) (win off : Nat) (asid : BitVec 16) (words : List Word) (crcOk : Bool) :
    Except (BitVec 8) State :=
  match s.window? win with
  | none => .error 1
  | some w =>
    if w.atomic then .error 2
    else if w.limit < off + 4 * words.length - 1 then .error 3
    else if w.asid != asid then .error 4
    else match s.rowAddrs w off words.length with
      | .error r => .error r
      | .ok pas =>
        if !crcOk then .error 8
        else if pas.any (s.wordTaken owner) then .error 5
        else .ok ((pas.zip words).foldl (fun s x => s.markWord x.1 owner x.2) s)

/-- ROW_LANDING (R306, R419). A frozen node's rows wait at their sender (R335). -/
def execRowLanding (row : Row) (s : State) : Result :=
  .next <|
    if s.nodeHeld row.sender.node then s.block
    else match s.land (.remote row.sender) row.win row.off row.asid row.words row.crcOk with
      | .ok s1 => s1.landed row.sender row.op row.j
      | .error r => s.rejected row.sender row.op row.j r

/-- The reward slot of a live entry that an address is, with its tower (R436). -/
def State.rewardSlot? (s : State) (a : Nat) : Option Nat :=
  (List.range 4).find? fun k => (s.tower k).join.episodes.any fun x =>
    (List.range (Nat.min x.steps (s.tower k).join.room)).any fun t => match s.recordPa k x.entry t 4 true with
      | .ok pa => pa == a
      | _ => false

/-- A word that landed becomes full: a reward slot as F32, counted, and any other as I32 (R306, R445, R452). -/
def State.settleWord (s : State) (w : WordState) : State :=
  match s.rewardSlot? w.addr with
  | some k => (s.makeFull w.addr w.pend 1).joinCount k .made 1
  | none => s.makeFull w.addr w.pend 0

/-- One word hears a sender's commit token (R306, R425). -/
def State.commitWord (s : State) (x : Sender) (w : WordState) : State :=
  match w.owner with
  | some (.remote y) => if x = y then s.settleWord w else s
  | some (.coll ms) =>
    if ms.contains x then
      let left := ms.filter fun m => m != x
      if left.isEmpty then s.settleWord w else s.setWord { w with owner := some (.coll left) }
    else s
  | _ => s

/-- One word hears a sender's abort token (R306, R425). -/
def State.abortWord (s : State) (x : Sender) (w : WordState) : State :=
  match w.owner with
  | some (.remote y) => if x = y then s.unmark w.addr else s
  | some (.coll ms) => if ms.contains x then s.unmark w.addr else s
  | _ => s

/-- The acknowledgement of a token. -/
def State.tokenTaken (s : State) (x : Sender) : State := s.answer x (.landingAck x.task 0 0 s.node) (.tokenAck x)

/-- REMOTE_ATOMIC_RECEIVE (R420): the receiver's checks, and the operation at its bank. It raises no bank flag. -/
def execRemoteAtomicReceive (m : RemoteAtomic) (s : State) : Result :=
  .next <|
    if s.nodeHeld m.sender.node then s.block
    else
      let bad := fun r => s.rejected m.sender m.op m.j r
      match s.window? m.win with
      | none => bad 1
      | some w =>
        if !w.atomic then bad 2
        else if w.limit < m.off + 3 then bad 3
        else if w.asid != m.asid then bad 4
        else match s.translate w.asid ((w.base + m.off) % 2 ^ 57) true (some w.key) with
          | .ok pa =>
            if !(regionOf pa).isShared then bad 7
            else
              let old := s.mem.readWord pa
              match bankCompute m.bop old m.b m.c with
              | (new, fl) =>
                (s.plainWrite pa (bytesOfNat new.toNat 4) w.key partWriter).answer m.sender
                  (.remoteAtomicReply m.sender.task m.op m.j old fl) (.atomicReply m.sender m.op m.j old fl)
          | .prot => bad 7
          | _ => bad 6

/-- REMOTE_ATOMIC_REPLY (R420): the old value goes to t0, and its flags into the instance. -/
def execRemoteAtomicReply (task op j : Nat) (value : Word) (flags : BitVec 5) (s : State) : Result :=
  .next (s.onWord task op j .sent fun t o =>
    let fmt := match atomicOf (o.at j).data with
      | some (b, _) => bankFormat b 0
      | none => 0
    if t.phase.leaving then s.endCommand task op j
    else ((s.active task).raiseFlags task (o.firing.instAt j) flags).completeCommand task o j (.data fmt value) (operand o.instr o.firing 1 j))

/-! ### Collectives (R423 to R425) -/

/-- Two contributions of one group and round agree (R424). -/
def contributionsAgree (c d : Contribution) : Bool :=
  c.form == d.form && c.redop == d.redop && c.dt == d.dt && c.len == d.len && c.members == d.members && c.root == d.root

/-- The pairwise operation of a collective (R424). -/
def collOp (dt op : Nat) (a b : Word) : FRes :=
  match dt, op with
  | 0, 0 => (addWords a b, 0)
  | 0, 1 => (minWords a b, 0)
  | 0, _ => (maxWords a b, 0)
  | _, 0 => fadd a b
  | _, 1 => fmin a b
  | _, _ => fmax a b

/-- The words of the members combined, with their flags, in a grouping that `key` gives (R80, R424). -/
def combineWords (f : Word → Word → FRes) (key : Nat → Nat) : Nat → List FRes → FRes
  | 0, xs => xs.headD (0, 0)
  | n + 1, xs =>
    if xs.length ≤ 1 then xs.headD (0, 0)
    else
      let i := key (2 * n) % xs.length
      let rest := xs.eraseIdx i
      let k := key (2 * n + 1) % rest.length
      let x := xs.getD i (0, 0)
      let y := rest.getD k (0, 0)
      let r := f x.1 y.1
      combineWords f key n (rest.eraseIdx k ++ [(r.1, r.2 ||| x.2 ||| y.2)])

/-- Every combination of a collective whose members stand in rank order. -/
def combinations (fresh : Nat) (cs : List Contribution) : List FRes :=
  match cs with
  | [] => []
  | c :: _ => (List.range c.words.length).map fun w =>
      combineWords (collOp c.dt c.redop) (fun i => Config.collectiveOrder fresh (8192 * w + i)) cs.length
        (cs.map fun d => (d.words.getD w 0, 0))

/-- The result at rank `r` (R423). -/
def collResult (cs : List Contribution) (all : List FRes) (r : Nat) : List Word :=
  match cs with
  | [] => []
  | c :: _ => match c.form with
    | 0 => all.map (·.1)
    | 1 => cs.flatMap (·.words)
    | 2 => ((all.drop (r * (c.len / 4))).take (c.len / 4)).map (·.1)
    | _ => (cs.getD c.root c).words

/-- The members of a collective of which every rank has contributed, in rank order. -/
def State.whole (s : State) (c : Contribution) : Option (List Contribution) :=
  let cs := (List.range c.members).filterMap fun r =>
    s.collectives.find? fun d => d.gid == c.gid && d.round == c.round && d.rank == r
  if cs.length = c.members then some cs else none

/-- A member of this package receives its result, and the flags of every combination. What is to be written is its own share
of the answers (R425); a result that comes from a line with a bad code carries such a code on (R431). -/
def State.giveResult (s : State) (cs : List Contribution) (all : List FRes) (c : Contribution) : State :=
  match s.op? c.sender.task c.op with
  | none => s
  | some (t, o) =>
    if c.sender.node != s.node || (o.at c.j).stage != .queued then s
    else match collectiveOf o.instr (o.at c.j).data with
      | none => s
      | some k =>
        let ws := collResult cs all c.rank
        let fl := all.foldl (fun f x => f ||| x.2) 0
        let parts := if (t.segment k.dseg).typ = typLand then (cutRows k.dst.toNat ws ws.length).length else ws.length
        let left := (cs.filter fun d => !d.settled).map (·.sender)
        (((((s.active t.id).raiseFlags t.id (o.firing.instAt c.j) fl).withOpWord t.id o.id c.j fun w =>
          { w with stage := .sent, data := w.data ++ ws }).addWork t.id o.id c.j parts
            (if cs.all (·.good) then [] else List.range parts)).withWork t.id o.id c.j fun w => { w with members := left }).push
          (.engineCommandComplete t.id o.id c.j)

/-- A contribution has been read by this package's engine: its member, in another package, hears of it (R425). -/
def State.contributionRead (s : State) (c : Contribution) : State :=
  if c.sender.node = s.node then s else s.landed c.sender c.op c.j

/-- COLL_CONTRIBUTION (R424): a contribution is rejected with one that it does not agree with; the last one of a
collective brings every member of the package its result. -/
def execCollContribution (c : Contribution) (s : State) : Result :=
  .next <|
    if s.nodeHeld c.sender.node then s.block
    else match s.collectives.find? fun d => d.gid == c.gid && d.round == c.round && !contributionsAgree d c with
    | some d =>
      (({ s with collectives := s.collectives.filter fun x => x != d }).rejected d.sender d.op d.j 0x0A).rejected c.sender c.op c.j 0x0A
    | none =>
      let s1 := { s with collectives := s.collectives ++ [c] }
      match s1.whole c with
      | none => s1
      | some cs =>
        let all := if c.form = 0 ∨ c.form = 2 then combinations s1.fresh cs else []
        cs.foldl (fun s d => (s.giveResult cs all d).contributionRead d) ({ s1 with collectives := s1.collectives.filter fun x => !cs.contains x }).freshen

/-! ### Commands that run and complete (R311, R412, R414, R425) -/

/-- What a move takes for word `k`: its source as it stood at the start, or, where its ranges do not overlap, perhaps as another
agent has left it meanwhile (R414). -/
def State.moveWord (t : Task) (m : Moves) (index taken : List Word) (bad : List Nat) (k : Nat) (s : State) : Word × Bool × State :=
  let old := (taken.getD k 0, !bad.contains k)
  if t.copyOverlaps m then (old.1, old.2, s)
  else match s.pick 2 with
    | (0, s1) => (old.1, old.2, s1)
    | (_, s1) =>
      match s1.addressNow t none memoryTypes ⟨m.sseg, (m.place index k).1, 4, false, false, 0⟩ with
      | .ok (pa, key, s2) => match s2.memoryWord pa key with
        | (w, s3) => (w, s2.lineGood pa key, s3)
      | .error _ => (old.1, old.2, s1)

/-- A line whose code failed and that leaves the package for a host: the exit port checks it (R431). -/
def OutLine.refusedExit (l : OutLine) : Option (BitVec 14 × Nat) :=
  match l.words.head? with
  | some (a, _) => match regionOf a with
    | .host n => if l.bad then some (BitVec.ofNat 14 n, a) else none
    | _ => none
  | none => none

/-- Every part of a command's result is written: a collective has its own share of the answers, and any other command
completes. -/
def State.workDone (s : State) (id : Nat) (o : OpRec) (j : Nat) : State :=
  if isColl o.instr then
    ((s.retireCommand id o.id j).withOpWord id o.id j fun w => { w with pending := w.pending - 1 }).allAnswered id o.id j
  else s.completeCommand id o j (operand o.instr o.firing 1 j) (operand o.instr o.firing 1 j)

/-- A command goes on while parts of its result are left. -/
def State.workLeft (s : State) (id : Nat) (o : OpRec) (j : Nat) : State :=
  if (s.work? id o.id j).any fun w => !w.todo.isEmpty || !w.lines.isEmpty then s.push (.engineCommandComplete id o.id j)
  else s.workDone id o j

/-- A command writes one more line, whichever it is: writes to different lines keep no order (R310). -/
def State.oneLine (s : State) (id : Nat) (t : Task) (o : OpRec) (j : Nat) (d : Sink) (val : Nat → State → Word × Bool × State)
    (w : EngineWork) : State :=
  match s.pick w.todo.length with
  | (i, s1) =>
    match s1.sendLine t o.firing d val w.todo (w.todo.getD i 0) with
    | .error s2 => s2.endCommand id o.id j
    | .ok (l, rest, s2) =>
      match l.refusedExit with
      | some (n, a) => (s2.raiseExit id o.firing.tag n a).endCommand id o.id j
      | none => ((s2.performLine (slotWriter t.slot) l).withWork id o.id j fun w => { w with todo := rest }).workLeft id o j

/-- Every line that a command has left leaves it at once, and its completion token with the last, where the release rule lets
the token come before the writes perform (R311); `none` where it does not. -/
def State.allLines (s : State) (id : Nat) (t : Task) (o : OpRec) (j : Nat) (d : Sink) (val : Nat → State → Word × Bool × State)
    (w : EngineWork) : Option State :=
  match s.sendLines t o.firing d val w.todo w.todo.length with
  | .error s1 => some (s1.endCommand id o.id j)
  | .ok (ls, s1) =>
    if ls.all fun l => l.refusedExit.isNone && l.words.all fun x => State.loose t o j x.1 then
      let sc := if engRel (controlWord o j) then some (engRsc (controlWord o j)) else none
      some (((s1.tellCommand id o j).withWork id o.id j fun w =>
        { w with todo := [], told := true, lines := ls.map fun l => { l with scope := sc } }).push (.engineCommandComplete id o.id j))
    else none

/-- A move goes on. -/
def State.moveStep (s : State) (id : Nat) (t : Task) (o : OpRec) (j : Nat) (m : Moves) (w : EngineWork) : State :=
  let data := (o.at j).data
  let rows := if m.indexed then m.rows else 0
  let index := (data.drop 8).take rows
  let d : Sink := ⟨m.dseg, memoryTypes, fun k => (m.place index k).2⟩
  let val := State.moveWord t m index (data.drop (8 + rows)) w.bad
  match s.pick 2 with
  | (0, s1) => s1.oneLine id t o j d val w
  | (_, s1) => (s1.allLines id t o j d val w).getD (s1.oneLine id t o j d val w)

/-- A line on its way performs, whichever it is (R310). -/
def State.lateLine (s : State) (id : Nat) (o : OpRec) (j : Nat) (w : EngineWork) : State :=
  match s.pick w.lines.length with
  | (i, s1) => match w.lines[i]? with
    | none => s1
    | some l => ((s1.performLine (s1.commandWriter id) l).withWork id o.id j fun w => { w with lines := w.lines.eraseIdx i }).workLeft id o j

/-- The result of a collective. -/
def collData (o : OpRec) (j : Nat) : List Word :=
  let d := (o.at j).data
  d.drop (8 + 2 + ((groupOf (d.drop 8)).map fun g => g.nodes.length).getD 0)

/-- The memory that a landing window's row lies in. -/
def State.landClass (s : State) (win off : Nat) (asid : BitVec 16) : LineClass :=
  match s.window? win with
  | none => .dram
  | some w => match s.translate asid ((w.base + off) % 2 ^ 57) true none with
    | .ok pa => lineClassOf pa
    | _ => .dram

/-- A row of a collective's result lands at its member's window (R425); what the window refuses is the member's failure. -/
def State.landRow (s : State) (id : Nat) (t : Task) (o : OpRec) (j : Nat) (c : Collective) (w : EngineWork) : State :=
  match s.pick w.todo.length with
  | (i, s1) =>
    let k := w.todo.getD i 0
    let ws := collData o j
    match (cutRows c.dst.toNat ws ws.length)[k]? with
    | none => s1
    | some r =>
      match s1.debitLines o.firing t.lowQuad (s1.landClass c.win r.1 t.tcb.asid) ((4 * r.2.length + 63) / 64) with
      | .error s2 => s2.endCommand id o.id j
      | .ok s2 => match s2.land (.coll w.members) c.win r.1 t.tcb.asid r.2 w.bad.isEmpty with
        | .ok s3 => (s3.withWork id o.id j fun w => { w with todo := w.todo.erase k }).workLeft id o j
        | .error e => (s2.takeFailure id o.id j o.firing.tag s.node e).endCommand id o.id j

/-- A collective writes its result (R424, R425): it takes a place at its engine and a range again, and writes part after part. -/
def State.resultStep (s : State) (id : Nat) (t : Task) (o : OpRec) (j : Nat) (c : Collective) (w : EngineWork) : State :=
  let r : Reader := ⟨id, o.id, j, t.tower⟩
  let x := s.engine t.tower 2
  if !x.running.contains r then
    if 8 ≤ x.running.length || ((t.commandRange o j).isSome && decide (32 ≤ (s.hoop t.hoop).ranges.length)) then s.block
    else ((s.withEngine t.tower 2 fun x => { x with running := x.running ++ [r] }).takeRange t o j).push (.engineCommandComplete id o.id j)
  else if (t.segment c.dseg).typ = typLand then s.landRow id t o j c w
  else
    let ws := collData o j
    s.oneLine id t o j ⟨c.dseg, [typDram, typShm, typScr], fun k => c.dst + BitVec.ofNat 32 (4 * k)⟩
      (fun k s => (ws.getD k 0, !w.bad.contains k, s)) w

/-- A running command goes on, or completes when nothing of its result is left. -/
def State.workStep (s : State) (id : Nat) (t : Task) (o : OpRec) (j : Nat) (w : EngineWork) : State :=
  if w.todo.isEmpty then (if w.lines.isEmpty then s.workDone id o j else s.lateLine id o j w)
  else if isColl o.instr then
    match collectiveOf o.instr (o.at j).data with
    | some c => s.resultStep id t o j c w
    | none => s
  else match movesOf o.instr (o.at j).data with
    | some m => s.moveStep id t o j m w
    | none => s

/-- ENGINE_COMMAND_COMPLETE (R412): a running command writes line after line until it is complete. The command of a
task that aborts ends after the line in progress; the engine of a frozen one suspends (R335). -/
def execEngineCommandComplete (task op j : Nat) (s : State) : Result :=
  .next <|
    match s.op? task op with
    | none => s
    | some (t, o) =>
      let w := o.at j
      if w.stage != .sent && w.stage != .queued then s
      else if t.phase.leaving then s.endCommand task op j
      else match engineOf o.instr with
        | none => match s.window? (operand o.instr o.firing 0 j).word.toNat with
          | some x => if x.asid == t.tcb.asid && !(s.windowProvisional x).isEmpty then s.block else s.closeWindow task t o j
          | none => s.closeWindow task t o j
        | some e => match s.work? task op j with
          | none => s
          | some k => if !k.told && (s.engine t.tower e).frozen != .none then s.block else s.workStep task t o j k

/-! ### Instructions (R410) -/

def execCopy (f : XForm) (s : State) : Result := withFiring s fun g s => portFiring (.copy f) g s
def execGather (f : XForm) (s : State) : Result := withFiring s fun g s => portFiring (.gather f) g s
def execScatter (f : XForm) (s : State) : Result := withFiring s fun g s => portFiring (.scatter f) g s
def execAllreduce (f : XForm) (s : State) : Result := withFiring s fun g s => portFiring (.allreduce f) g s
def execAllgather (f : XForm) (s : State) : Result := withFiring s fun g s => portFiring (.allgather f) g s
def execReducescatter (f : XForm) (s : State) : Result := withFiring s fun g s => portFiring (.reducescatter f) g s
def execBroadcast (f : XForm) (s : State) : Result := withFiring s fun g s => portFiring (.broadcast f) g s
def execRemwr (f : XForm) (s : State) : Result := withFiring s fun g s => portFiring (.remwr f) g s
def execRematom (f : XForm) (s : State) : Result := withFiring s fun g s => portFiring (.rematom f) g s
def execLwopen (f : XForm) (s : State) : Result := withFiring s fun g s => portFiring (.lwopen f) g s
def execLwclose (f : XForm) (s : State) : Result := withFiring s fun g s => portFiring (.lwclose f) g s

/-! ### Host channels (R427, R428) -/

def ingressNode (v : BitVec 64) : BitVec 14 := v.extractLsb' 50 14
def ingressMode (v : BitVec 64) : Nat := (v.extractLsb' 48 2).toNat
def channelLine (v : BitVec 64) : Nat := (v.extractLsb' 6 42).toNat * 64

/-- A host token is dropped, and logged (R428, R485). -/
def State.dropToken (s : State) (chan : Nat) (node : BitVec 14) : State :=
  s.logEvent 0x08 0x3F ((0 : BitVec 2) ++ node ++ BitVec.ofNat 16 chan) 0

/-- The queue of an ingress channel, where it meets the conditions of R428. -/
def State.hostQueue (s : State) (line : Nat) : Option QueueLine :=
  match regionOf line with
  | .shared k _ =>
    match s.queueLine line with
    | some q =>
      let lo : Int := line + (BitVec.ofNat 32 q.rbase).toInt
      if q.le = 1 ∧ q.wfmt = 0 ∧ (sharedBase k 0 : Int) ≤ lo ∧ lo + q.n * 4 * q.size ≤ sharedBase k 0 + 0x4000000 then some q else none
    | none => none
  | _ => none

/-- A queue takes an entry that the part appends while an entry is free (R279). -/
def QueueLine.open (q : QueueLine) : Bool := decide (q.used < q.n)

/-- The entry words and TAIL are written. -/
def State.appendEntry (s : State) (line : Nat) (key : BitVec 12) (q : QueueLine) (pas : List Nat) (words : List Word) : State :=
  (s.writeWords key partWriter (pas.zip words)).writeWords key partWriter [(line + 16, q.tail + 1)]

/-- A host token on a QUEUE channel: appended, dropped, or `none` while its queue is full. -/
def State.hostAppend (s : State) (chan : Nat) (node : BitVec 14) (data : BitVec 64) : Option State :=
  let line := channelLine (s.incfg.getD chan 0)
  match s.hostQueue line with
  | none => some (s.dropToken chan node)
  | some q =>
    if q.open then
      some (s.appendEntry line 0 q ((List.range 2).map fun k => q.place line q.tail k) [data.extractLsb' 0 32, data.extractLsb' 32 32])
    else none

/-- An earlier write of a host is still on its way (R308). -/
def State.hostWritesAhead (s : State) (node : BitVec 14) : Bool :=
  let place := match s.cur with
    | some (_, k) => k
    | none => 0
  (s.agenda.take place).any fun x => match x with
    | .event (.systemAgentWrite n _ _) => n == node
    | _ => false

/-- HOST_TOKEN (R308, R317, R428): it follows every write that its host sent before it. -/
def execHostToken (chan : Nat) (node : BitVec 14) (data : BitVec 64) (s : State) : Result :=
  .next <|
    let v := s.incfg.getD chan 0
    if s.nodeHeld node || s.hostWritesAhead node then s.block
    else if ingressNode v != node then s.dropToken chan node
    else match ingressMode v with
      | 1 => s.push (.launchDecrement ⟨some data.toNat, 0⟩)
      | 2 => (s.hostAppend chan node data).getD (s.push (.hostQueueWaitEnd chan ⟨node, data⟩))
      | _ => s.dropToken chan node

/-- HOST_QUEUE_WAIT_END (R428). -/
def execHostQueueWaitEnd (chan : Nat) (token : HostWord) (s : State) : Result :=
  .next ((s.hostAppend chan token.node token.data).getD s.block)

/-! ### Links (R430, R482) -/

def State.link (s : State) (p : Nat) : Link := s.links.getD p ⟨0, 0, 0x3FFF, 0, 0, 0⟩
def State.withLink (s : State) (p : Nat) (f : Link → Link) : State := { s with links := s.links.modify p f }

/-- The node that a message in flight goes to, where it is one that a failed link answers. -/
def OutMsg.toward : OutMsg → Option (BitVec 14)
  | .row r => some r.dest
  | .atomic a => some a.dest
  | .contribution n _ | .reward n _ => some n
  | _ => none

/-- FLIT_RECEIVE (R430): a good flit is acknowledged, and the acknowledgement ends its retries and what it carried is in flight
no longer; a bad one is not. -/
def execFlitReceive (port : Nat) (good : Bool) (s : State) : Result :=
  .next (if good then s.withLink port fun l => { l with
    fails := 0, acked := Nat.min (l.acked + 1) (s.outbox.filter fun m => m.toward == some l.peer).length } else s)

/-- What was in flight to a port's partner is lost: each command's part of it is answered with a failure (R430). -/
def State.loseMessage (s : State) (m : OutMsg) : State :=
  match m with
  | .row r => s.push (.failureAck r.sender.task r.op r.j r.dest 0x09)
  | .atomic a => s.push (.failureAck a.sender.task a.op a.j a.dest 0x09)
  | .contribution n c => s.push (.failureAck c.sender.task c.op c.j n 0x09)
  | .reward n r => s.push (.failureAck r.sender.task r.op r.j n 0x09)
  | _ => s

/-- The first `n` of the messages for a node stay; those behind them, which the link has not acknowledged, are lost. -/
def keepAcked (node : BitVec 14) : Nat → List OutMsg → List OutMsg
  | _, [] => []
  | n, m :: ms =>
    if m.toward = some node then match n with
      | 0 => keepAcked node 0 ms
      | k + 1 => m :: keepAcked node k ms
    else m :: keepAcked node n ms

/-- A host token that comes over a link from a node. -/
def Item.hostTokenOf (node : BitVec 14) : Item → Option Nat
  | .event (.hostToken chan n _) => if n = node then some chan else none
  | _ => none

/-- LINK_DOWN (R430, R482, R485): what was in flight for the port's partner is answered with failures, and the host tokens in
flight from it are lost and logged. -/
def State.linkFails (s : State) (port : Nat) : State :=
  let l := s.link port
  let lost := (s.outbox.filter fun m => m.toward == some l.peer).drop l.acked
  let chans := s.agenda.filterMap (Item.hostTokenOf l.peer)
  let s1 := ({ s with
      outbox := keepAcked l.peer l.acked s.outbox
      agenda := s.agenda.filter fun x => (Item.hostTokenOf l.peer x).isNone }).withLink port fun l =>
    { l with st := 2, fails := 0, downs := if l.downs = 0xFFFF then l.downs else l.downs + 1 }
  chans.foldl (fun s c => s.dropToken c l.peer) ((lost.foldl State.loseMessage s1).logEvent 0x07 0x3F (BitVec.ofNat 32 port) 0)

def execLinkDown (port : Nat) (s : State) : Result := .next (if (s.link port).st = 1 then s.linkFails port else s)

/-- FLIT_RETRY (R430): a resend is counted; sixteen failures in a row take the port down. -/
def execFlitRetry (port : Nat) (s : State) : Result :=
  .next <|
    if (s.link port).st = 1 then
      let s1 := s.withLink port fun l => { l with retry := if l.retry = 0xFFFFFFFF then l.retry else l.retry + 1, fails := l.fails + 1 }
      if 16 ≤ (s1.link port).fails then s1.linkFails port else s1
    else s

/-- LINK_RETRAIN (R482): a down port trains again on the sideband's command. -/
def execLinkRetrain (port : Nat) (s : State) : Result :=
  .next (if (s.link port).st = 2 then s.withLink port fun l => { l with st := 0 } else s)

end Sys2Proof.Machine
end

