-- ==== Sys2Proof/Machine/Reward.lean ====
section
/-!
DEFINITION. The reward join engine (R77, R435 to R452), the tokens by which a sender's landed words are settled (R306),
and the departure of every command from the engine port (R412, R440).
-/

namespace Sys2Proof.Machine

/-! ### The life of an entry (R447) -/

/-- What the reward slots of an entry hold. -/
inductive SlotView where
  | full | provisional | empty
  deriving DecidableEq, Repr

/-- The reward slots of steps 0 to `n` − 1 in order. `none` says that the store does not translate. -/
def State.slotViews (s : State) (k entry : Nat) (t : Nat) : Nat → Except (BitVec 8) (List SlotView)
  | 0 => .ok []
  | n + 1 =>
    match s.recordPa k entry t 4 true with
    | .ok a =>
      match s.slotViews k entry (t + 1) n with
      | .error e => .error e
      | .ok vs =>
        .ok ((match s.wordAt a with
          | some w => if w.code = .full then SlotView.full else if w.code = .provisional then .provisional else .empty
          | none => .empty) :: vs)
    | .prot => .error F_PROT
    | _ => .error F_XLATE

/-- An entry goes to SCAN. -/
def State.startScan (s : State) (k entry : Nat) : State :=
  (s.withEpisode k entry fun x => { x with st := .scan }).push (.episodeScan k entry)

/-- A closed or expired entry is looked at again (R447). -/
def State.settleEpisode (s : State) (k entry : Nat) : State :=
  match s.episode? k entry with
  | none => s
  | some x =>
    if x.st = .closed ∨ x.st = .expired then
      match s.slotViews k entry 0 x.steps with
      | .error c => s.storeFault k entry c
      | .ok vs =>
        if vs.all fun v => v == .full then s.startScan k entry
        else if x.st = .closed || vs.any fun v => v == .provisional then s
        else
          let f := vs.idxOf .empty
          let e := (s.tower k).join
          if !e.truncate || f = 0 then (s.joinCount k .dropped 1).freeEpisode k entry
          else match s.recordPa k entry f 0 false with
            | .ok a =>
              let v := s.mem.readWord a
              ((s.joinCount k .truncated 1).withEpisode k entry fun x => { x with steps := f, boot := v, fin := false }).startScan k entry
            | .prot => s.storeFault k entry F_PROT
            | _ => s.storeFault k entry F_XLATE
    else s

/-- Every entry of a tower's engine that a settled slot may concern. -/
def State.settleEpisodes (s : State) (k : Nat) : State :=
  ((s.tower k).join.episodes.map (·.entry)).foldl (fun s e => s.settleEpisode k e) s

/-- EPISODE_DEADLINE (R447): tick D has ended. -/
def State.expire (s : State) (k entry : Nat) : State :=
  match s.episode? k entry with
  | none => s
  | some x =>
    if x.st = .closed ∧ x.deadline < s.time.toNat then
      (s.withEpisode k entry fun x => { x with st := .expired }).settleEpisode k entry
    else s

def execEpisodeDeadline (tower entry : Nat) (s : State) : Result := .next (s.expire tower entry)

/-! ### The scan (R77, R448) -/

/-- One step of the scan, from the last step backward: V_t and r_t, and what the step after it left. The answer is A_t,
G_t and the flags. -/
def scanStep (gamma gl : Word) (done : Bool) (v r anext vnext : Word) : Word × Word × BitVec 5 :=
  let gv := if done then ((0 : Word), (0 : BitVec 5)) else fmul gamma vnext
  let x := fadd r gv.1
  let d := fsub x.1 v
  let ga := fmul gl anext
  let a := fadd d.1 ga.1
  let g := fadd a.1 v
  (a.1, g.1, gv.2 ||| x.2 ||| d.2 ||| ga.2 ||| a.2 ||| g.2)

/-- The scan over the steps in reverse order: the advantages and returns in step order, and the flags. -/
def scanBack (gamma gl : Word) : List (Word × Word) → Bool → Word → Word → List Word → List Word → BitVec 5 → List Word × List Word × BitVec 5
  | [], _, _, _, adv, ret, fl => (adv, ret, fl)
  | (v, r) :: rest, done, anext, vnext, adv, ret, fl =>
    let x := scanStep gamma gl done v r anext vnext
    scanBack gamma gl rest false x.1 v (x.1 :: adv) (x.2.1 :: ret) (fl ||| x.2.2)

/-- Word `w` of the step records 0 to `n` − 1. -/
def State.recordWords (s : State) (k entry w : Nat) (t : Nat) : Nat → Except (BitVec 8) (List Word)
  | 0 => .ok []
  | n + 1 =>
    match s.recordPa k entry t w false with
    | .ok a =>
      match s.recordWords k entry w (t + 1) n with
      | .ok ws => .ok (s.mem.readWord a :: ws)
      | .error e => .error e
    | .prot => .error F_PROT
    | _ => .error F_XLATE

/-- An episode is stale (R439). -/
def JoinEngine.stale (e : JoinEngine) (version : Word) : Bool := decide ((e.maxlag : Int) < (e.lv - version).toInt)

/-- The turn of a held entry has come: a stale one is cleared, and any other is found fresh for good (R450). -/
def State.judgeTurn (s : State) (k entry : Nat) : State :=
  match s.episode? k entry with
  | none => s
  | some x =>
    if (s.tower k).join.stale x.version then (s.joinCount k .stale 1).freeEpisode k entry
    else s.withEpisode k entry fun x => { x with judged := true }

/-- EPISODE_SCAN (R448). -/
def execEpisodeScan (tower entry : Nat) (s : State) : Result :=
  .next <|
    match s.episode? tower entry with
    | none => s
    | some x =>
      if x.st != .scan then s
      else match s.recordWords tower entry 0 0 x.steps, s.recordWords tower entry 4 0 x.steps with
        | .error c, _ => s.storeFault tower entry c
        | _, .error c => s.storeFault tower entry c
        | .ok vs, .ok rs =>
          let e := (s.tower tower).join
          match scanBack e.gamma e.gl (vs.zip rs).reverse x.fin 0 x.boot [] [] 0 with
          | (adv, ret, fl) =>
            let turn := s.fresh
            let s1 := ((s.freshen.withEpisode tower entry fun x => { x with st := .held, adv := adv, ret := ret, turn := turn }).withJoin
              tower fun e => { e with flags := e.flags ||| fl }).push (.episodeRelease tower entry)
            if e.ready then s1.judgeTurn tower entry else s1

/-! ### Queues of the engine (R446, R449) -/

/-- The control line of a queue of the engine, at its virtual address under the owner, with its page's key. -/
def State.joinQueue (s : State) (e : JoinEngine) (va : Nat) : Option (Nat × QueueLine) :=
  match s.translate e.asid va true none with
  | .ok pa => if (regionOf pa).isShared then (s.queueLine pa).map fun q => (pa, q) else none
  | _ => none

/-- An entry is appended to a queue of the engine (R279): `none` while no entry is free, `error` where the queue cannot
be reached. -/
def State.joinAppend (s : State) (e : JoinEngine) (va : Nat) (words : List Word) : Except Unit (Option State) :=
  match s.joinQueue e va with
  | none => .error ()
  | some (line, q) =>
    if !q.open then .ok none
    else
      let pas := (List.range q.size).filterMap fun k => match s.translate e.asid (q.place va q.tail k % 2 ^ 57) true none with
        | .ok pa => if (regionOf pa).isShared then some pa else none
        | _ => none
      if pas.length = q.size then .ok (some (s.appendEntry line (s.pageKey e.asid va) q pas words)) else .error ()

/-! ### Release (R449, R450) -/

/-- The turn of a held entry (R450). -/
def JoinEngine.turnOf (e : JoinEngine) (x : Episode) : Bool :=
  if e.ready then e.episodes.all fun y => y.st != .held || decide (x.turn ≤ y.turn)
  else e.unresolved.head? == some x.seq

/-- The learner record of step `t` (R449). -/
def learnerRecord (x : Episode) (t : Nat) (adv ret logp action version : Word) : List Word :=
  [x.ident.extractLsb' 0 32, BitVec.ofNat 12 t ++ (0 : BitVec 4) ++ x.ident.extractLsb' 32 16, adv, ret, logp, action, version, x.seq]

/-- The next record of an entry is appended, or the release of the entry is over. -/
def State.releaseNext (s : State) (k : Nat) (x : Episode) : State :=
  let e := (s.tower k).join
  let t := x.steps - x.adv.length
  match x.adv, x.ret with
  | a :: adv, g :: ret =>
    match s.recordWords k x.entry 1 t 1, s.recordWords k x.entry 2 t 1, s.recordWords k x.entry 3 t 1 with
    | .ok [l], .ok [c], .ok [v] =>
      match s.joinAppend e e.lqva.toNat (learnerRecord x t a g l c v) with
      | .error _ => s.storeFault k x.entry F_XLATE
      | .ok none => s.block
      | .ok (some s1) =>
        ((s1.joinCount k .records 1).withEpisode k x.entry fun y => { y with adv := adv, ret := ret }).push (.episodeRelease k x.entry)
    | .error c, _, _ | _, .error c, _ | _, _, .error c => s.storeFault k x.entry c
    | _, _, _ => s
  | _, _ => (s.joinCount k .released 1).freeEpisode k x.entry

/-- EPISODE_RELEASE (R447, R449, R450): at its turn an entry is judged, under READY when it enters HELD; one that is not stale
appends its records one after another. -/
def execEpisodeRelease (tower entry : Nat) (s : State) : Result :=
  .next <|
    match s.episode? tower entry with
    | none => s
    | some x =>
      if x.st != .held then s
      else if !(s.tower tower).join.turnOf x then s.block
      else if x.judged then s.releaseNext tower x
      else (s.judgeTurn tower entry).push (.episodeRelease tower entry)

/-! ### Rewards (R444 to R446) -/

/-- An orphan goes to the orphan queue, or is discarded (R446). -/
def State.orphan (s : State) (k : Nat) (m : RewardMsg) (reason : BitVec 4) : State :=
  let e := (s.tower k).join
  match s.joinAppend e e.oqva.toNat
      [m.traj.extractLsb' 0 32, BitVec.ofNat 12 m.step ++ reason ++ m.traj.extractLsb' 32 16, m.value, s.time.extractLsb' 0 32] with
  | .ok (some s1) => s1.joinCount k .orphans 1
  | _ => s.joinCount k .discarded 1

/-- What a message that reaches its engine comes to (R445). -/
def State.judgeReward (s : State) (k : Nat) (m : RewardMsg) : Except (BitVec 8) State :=
  let e := (s.tower k).join
  if !e.en || !e.configured then .error 0x0B
  else if m.asid != e.asid then .error 4
  else match e.episodes.find? fun x => x.ident == m.traj with
    | none => .ok (s.orphan k m 1)
    | some x =>
      if x.st != .open && decide (x.deadline < s.time.toNat) then .ok (s.orphan k m 4)
      else if x.steps ≤ m.step then .ok (s.orphan k m 2)
      else match s.recordPa k x.entry m.step 4 true with
        | .ok a =>
          (match s.wordAt a with
           | some w => if w.code = .deferred then .ok (s.markWord a (.remote m.sender) m.value) else .ok (s.orphan k m 3)
           | none => .ok (s.markWord a (.remote m.sender) m.value))
        | .prot => .ok ((s.storeFault k x.entry F_PROT).orphan k m 1)
        | _ => .ok ((s.storeFault k x.entry F_XLATE).orphan k m 1)

/-- REWARD_ARRIVAL (R445). -/
def execRewardArrival (m : RewardMsg) (s : State) : Result :=
  .next <|
    let k := (m.traj.extractLsb' 32 2).toNat
    if s.nodeHeld m.sender.node || (s.engine k 3).frozen != .none then s.block
    else match s.judgeReward k m with
      | .ok s1 => s1.landed m.sender m.op m.j
      | .error r => s.rejected m.sender m.op m.j r

/-! ### Tokens (R306, R424, R425) -/

/-- COMMIT_TOKEN_RECEIVE (R306, R425): every word provisional under the sender becomes full, a collective's once every
member's token has come. -/
def execCommitTokenReceive (sender : Sender) (s : State) : Result :=
  .next
    (if s.nodeHeld sender.node then s.block else
     let settle := fun (c : Contribution) => { c with settled := true }
     let s1 := { s with collectives := modifyWhere (fun c => c.sender == sender) settle s.collectives }
     let heard := fun (w : EngineWork) => { w with members := w.members.filter fun m => m != sender }
     let s2 := s1.words.foldl (fun s w => s.commitWord sender w) { s1 with works := s1.works.map heard }
     ((List.range 4).foldl (fun s k => s.settleEpisodes k) s2).tokenTaken sender)

/-- The work is that of a collective whose result lands in a window. -/
def State.landsRows (s : State) (w : EngineWork) : Bool :=
  match s.op? w.task w.op with
  | some (t, o) => match collectiveOf o.instr (o.at w.j).data with
    | some c => isColl o.instr && (t.segment c.dseg).typ == typLand
    | none => false
  | none => false

/-- ABORT_TOKEN_RECEIVE (R306, R425): they return to deferred or empty, its contributions are withdrawn, and no more rows of a
result that it is a member of land. -/
def execAbortTokenReceive (sender : Sender) (s : State) : Result :=
  .next
    (if s.nodeHeld sender.node then s.block else
     let s1 := { s with collectives := s.collectives.filter fun c => c.sender != sender }
     let ended := fun (w : EngineWork) => if w.members.contains sender ∧ s.landsRows w then { w with todo := [] } else w
     let s2 := s1.words.foldl (fun s w => s.abortWord sender w) { s1 with works := s1.works.map ended }
     ((List.range 4).foldl (fun s k => s.settleEpisodes k) s2).tokenTaken sender)

/-! ### The commands of actors and learners (R438, R439, R442, R443, R452) -/

/-- The open episode of a context (R441). -/
def State.boundEpisode (s : State) (k id : Nat) (ctx : BitVec 12) : Option Episode :=
  (s.tower k).join.episodes.find? fun x => x.st == .open && x.bound == some (id, ctx)

/-- A free entry of a join table; which one is taken is not stated. -/
def State.freeEntry (s : State) (k : Nat) : Option Nat × State :=
  match s.pick 65536 with
  | (n, s1) =>
    let used := (s.tower k).join.episodes.map (·.entry)
    if 65536 ≤ used.length then (none, s1)
    else (((List.range (used.length + 1)).map fun i => (n + i) % 65536).find? fun e => !used.contains e, s1)

/-- EPOPEN performs (R442): its status. -/
def State.openEpisode (s : State) (id : Nat) (t : Task) (ctx : BitVec 12) (a b c : Word) : Word × State :=
  let k := t.tower
  let e := (s.tower k).join
  let ident : BitVec 48 := b.extractLsb' 0 16 ++ a
  if !e.en || !e.configured || e.asid != t.tcb.asid then (4, s)
  else if ident.extractLsb' 34 14 != s.node || (ident.extractLsb' 32 2).toNat != k || !bitsZero b 31 16 then (5, s)
  else if (s.boundEpisode k id ctx).isSome then (3, s)
  else if e.episodes.any fun x => x.ident == ident then (1, s)
  else match s.freeEntry k with
    | (none, s1) => (2, s1)
    | (some n, s1) =>
      let x : Episode := ⟨n, ident, .open, c, 0, 0, false, 0, 0, [], [], some (id, ctx), 0, false⟩
      (0, (s1.withJoin k fun e => { e with episodes := e.episodes ++ [x] }).joinCount k .opened 1)

/-- EPSTEP performs (R443): the step index, or all ones. -/
def State.appendStep (s : State) (id : Nat) (t : Task) (ctx : BitVec 12) (a b c : Word) : Word × State :=
  let k := t.tower
  let e := (s.tower k).join
  match s.boundEpisode k id ctx with
  | none => (0xFFFFFFFF, s)
  | some x =>
    if e.room ≤ x.steps then (0xFFFFFFFF, s)
    else match s.recordPa k x.entry x.steps 0 true with
      | .ok pa =>
        ((BitVec.ofNat 32 x.steps), (s.writeWords (s.pageKey e.asid (e.recordVa x.entry x.steps 0)) partWriter
          [(pa, a), (pa + 4, b), (pa + 8, c), (pa + 12, x.version)]).withEpisode k x.entry fun y => { y with steps := y.steps + 1 })
      | .prot => (0xFFFFFFFF, s.storeFault k x.entry F_PROT)
      | _ => (0xFFFFFFFF, s.storeFault k x.entry F_XLATE)

/-- EPEND performs (R443, R447). -/
def State.closeEpisode (s : State) (id : Nat) (t : Task) (ctx : BitVec 12) (a b : Word) : Word × State :=
  let k := t.tower
  match s.boundEpisode k id ctx with
  | none => (1, s)
  | some x =>
    if x.steps = 0 then (0, s.abandon k x.entry)
    else
      let e := (s.tower k).join
      let s1 := (s.withEpisode k x.entry fun y => { y with
        st := .closed, bound := none, boot := a, fin := b != 0, seq := e.nextSeq, deadline := s.time.toNat + 1024 * e.tout }).withJoin k
          fun e => { e with nextSeq := e.nextSeq + 1, unresolved := e.unresolved ++ [e.nextSeq] }
      (0, (s1.joinCount k .closed 1).settleEpisode k x.entry)

/-- A queue of JCFG's descriptor is as R438 asks. -/
def State.queueFits (s : State) (asid : BitVec 16) (va : Nat) (logn : Option Nat) (le : Nat) (wfmt : Word) : Bool :=
  match s.translate asid va true none with
  | .ok pa =>
    (regionOf pa).isShared && (match s.queueLine pa with
      | some q => q.le == le && q.wfmt == wfmt && (match logn with
        | some n => q.n == 2 ^ n
        | none => true)
      | none => false)
  | _ => false

/-- A descriptor of R438 is sound. -/
def jcfgOk (d : List Word) : Bool :=
  let w := fun k => d.getD k 0
  let finite := fun (x : Word) => x.extractLsb' 23 8 != 0xFF
  finite (w 0) && finite (w 1) && w 2 != 0 && bitsZero (w 3) 15 2

/-- JCFG performs (R438): 1 when the configuration is accepted. -/
def State.configureJoin (s : State) (t : Task) (d : List Word) : Word × State :=
  let k := t.tower
  let e := (s.tower k).join
  let w := fun k => d.getD k 0
  let lq : BitVec 64 := w 5 ++ w 4
  let oq : BitVec 64 := w 7 ++ w 6
  if t.tcb.asid != e.asid || !e.en || !e.episodes.isEmpty then (0, s)
  else if !s.queueFits e.asid lq.toNat none 3 0x1240 || !s.queueFits e.asid oq.toNat (some 14) 2 0x0040 then (0, s)
  else match fmul (w 0) (w 1) with
    | (gl, fl) =>
      (1, s.withJoin k fun e => { e with
        configured := true
        gamma := w 0, lambda := w 1, gl := gl, tout := (w 2).toNat, maxlag := bits (w 3) 31 16
        ready := (w 3).getLsbD 1, truncate := (w 3).getLsbD 0, lqva := lq, oqva := oq
        nextSeq := 0, unresolved := [], counters := List.replicate 11 0, flags := fl })

/-- LVSET performs (R439). -/
def State.setVersion (s : State) (t : Task) (a : Word) : Word × State :=
  if t.tcb.asid = (s.tower t.tower).join.asid then (1, s.withJoin t.tower fun e => { e with lv := a }) else (0, s)

/-- JSTAT performs (R452). -/
def State.joinStat (s : State) (t : Task) (sel : Word) : Word × State :=
  let e := (s.tower t.tower).join
  let n := jstatSel sel
  if !jstatSelOk sel || t.tcb.asid != e.asid then (0xFFFFFFFF, s)
  else if n = 0 then (BitVec.ofNat 32 e.episodes.length, s)
  else if n ≤ 11 then
    (e.counters.getD (n - 1) 0, if jstatClr sel then s.withJoin t.tower fun e => { e with counters := e.counters.set (n - 1) 0 } else s)
  else if n = 12 then (e.flags.zeroExtend 32, if jstatClr sel then s.withJoin t.tower fun e => { e with flags := 0 } else s)
  else if n = 13 then (e.lv, s)
  else (e.nextSeq, s)

/-- A line that a reward command debits besides its firing (R440). -/
def rewardLine : Instr → Option LineClass
  | .epstep _ | .epend _ => some .dram
  | .rwsend _ => some .shared
  | _ => none

/-- RWSEND leaves for its engine (R444). -/
def State.sendReward (s : State) (id : Nat) (t : Task) (o : OpRec) (j : Nat) (a b c : Word) : State :=
  let traj : BitVec 48 := b.extractLsb' 0 16 ++ a
  let node : BitVec 14 := traj.extractLsb' 34 14
  let m : RewardMsg := ⟨⟨s.node, id⟩, o.id, j, t.tcb.asid, traj, bits b 31 20, c⟩
  ((s.withTask id fun t => { t.addReceiver node with rowsSent := true }).withOpWord id o.id j fun w =>
    { w with stage := .sent, pending := 1 }).dispatch node (.rewardArrival m) (.reward node m)

/-- JCFG at the port: its control word and descriptor are judged (R438, R440). -/
def State.departJcfg (s : State) (id : Nat) (t : Task) (o : OpRec) (j : Nat) : State :=
  let a := descriptorAccess o j
  if !jcfgCtlOk (controlWord o j) || a.off.toNat % 32 != 0 then s.failCommand id o j a F_SEG 0
  else match s.descriptorReads t o.firing a.seg none (wordOffsets a.off 8) with
    | .error s1 => s1.endCommand id o.id j
    | .ok (d, s1) =>
      if !jcfgOk d then s1.failCommand id o j a F_SEG 0
      else match s1.configureJoin t d with
        | (r, s2) => s2.completeCommand id o j (.data 0 r) (.data 0 r)

/-- A command of the join engine leaves the port and performs (R440 to R444, R452). -/
def State.departReward (s : State) (id : Nat) (t : Task) (o : OpRec) (j : Nat) : State :=
  let g := o.firing
  let x := fun p => (operand o.instr g p j).word
  let ctx := g.tag.ctx
  let give := fun (r : Word × State) => r.2.completeCommand id o j (.data 0 r.1) (.data 0 r.1)
  match (match rewardLine o.instr with
    | some c => s.debitLines g t.lowQuad c 1
    | none => .ok s) with
  | .error s1 => s1.endCommand id o.id j
  | .ok s1 =>
    match o.instr with
    | .epopen _ => give (s1.openEpisode id t ctx (x 0) (x 1) (x 2))
    | .epstep _ => give (s1.appendStep id t ctx (x 0) (x 1) (x 2))
    | .epend _ => give (s1.closeEpisode id t ctx (x 0) (x 1))
    | .rwsend _ =>
      if bitsZero (x 1) 19 16 then s1.sendReward id t o j (x 0) (x 1) (x 2)
      else s1.failCommand id o j ⟨0, x 1, 4, true, false, 0⟩ F_SEG 0
    | .jcfg _ => s1.departJcfg id t o j
    | .lvset _ => give (s1.setVersion t (x 0))
    | .jstat _ => give (s1.joinStat t (x 0))
    | _ => s1

/-- ENGINE_PORT_DEPART (R409, R412, R440): a command leaves once its instance is the base of its window and the port
holds fewer than 32. The commands of a frozen join engine wait (R335). -/
def execEnginePortDepart (task op j : Nat) (s : State) : Result :=
  .next (s.onWord task op j .ready fun t o =>
    if t.halted || !t.isBase (o.firing.instAt j) || decide (32 ≤ s.portUsed t.hoop) then s.block
    else match o.instr, engineOf o.instr with
      | _, some e => s.departCommand task t o j e
      | .lwopen _, none => s.openWindow task t o j
      | .lwclose _, none => s.closeWindow task t o j
      | _, none => if (s.engine t.tower 3).frozen != .none then s.block else s.departReward task t o j)

/-- A word of a reward set comes to the port. -/
def State.toPort (id op j : Nat) (s : State) : State :=
  (s.withOpWord id op j fun w => { w with stage := .ready }).push (.enginePortDepart id op j)

def execEpopen (f : XForm) (s : State) : Result := withFiring s fun g s => sysFiring (.epopen f) (State.toPort g.task) g s
def execEpstep (f : XForm) (s : State) : Result := withFiring s fun g s => sysFiring (.epstep f) (State.toPort g.task) g s
def execEpend (f : XForm) (s : State) : Result := withFiring s fun g s => sysFiring (.epend f) (State.toPort g.task) g s
def execRwsend (f : XForm) (s : State) : Result := withFiring s fun g s => sysFiring (.rwsend f) (State.toPort g.task) g s
def execJcfg (f : XForm) (s : State) : Result := withFiring s fun g s => sysFiring (.jcfg f) (State.toPort g.task) g s
def execLvset (f : XForm) (s : State) : Result := withFiring s fun g s => sysFiring (.lvset f) (State.toPort g.task) g s
def execJstat (f : XForm) (s : State) : Result := withFiring s fun g s => sysFiring (.jstat f) (State.toPort g.task) g s

end Sys2Proof.Machine
end

