-- ==== Sys2Proof/WellFormed.lean ====
section
/-!
DEFINITION. Well-formed instructions: those whose word the front end accepts as far as the word itself
decides (checks 5 to 8 of R108; the rest of R108 concerns the block and the task).
-/

namespace Sys2Proof

/-- The word-local checks of R108 together. An event has no word and passes them all. -/
def Instr.wellFormed (i : Instr) : Bool :=
  i.modOk && i.literalStands && i.check5 && i.check6 && i.check7 && i.check8

/-- An instruction the front end accepts as far as its own word decides. -/
abbrev WellFormed (i : Instr) : Prop := i.wellFormed = true

end Sys2Proof
end

