-- ==== Sys2Proof/Machine/FrontEnd.lean ====
section
/-!
DEFINITION. The front end (R81 to R84, R99 to R110): fetching and numbering block images, the checks before placement,
and the placed copy of a block.
-/

namespace Sys2Proof.Machine

/-! ### Block images (R81 to R84) -/

/-- A block image as it was fetched: its virtual address and its words. -/
abbrev Image := Nat × List Word

def Image.word (m : Image) (k : Nat) : Word := m.2.getD k 0
def Image.ninst (m : Image) : Nat := bits (Image.word m 0) 23 17 + 1
def Image.nexit (m : Image) : Nat := bits (Image.word m 0) 16 14 + 1
def Image.rho (m : Image) : Nat := 2 ^ bits (Image.word m 0) 13 12
def Image.entryBit (m : Image) : Bool := (Image.word m 0).getLsbD 1
def Image.convBit (m : Image) : Bool := (Image.word m 0).getLsbD 0
def Image.cnode (m : Image) : Nat := bits (Image.word m 3) 31 25

/-- Instruction word `k`. -/
def Image.code (m : Image) (k : Nat) : Word := Image.word m (12 + k)
def Image.codes (m : Image) : List Word := (List.range (Image.ninst m)).map (Image.code m)

/-- The number of literal words before instruction `k`'s. -/
def Image.litsBefore (m : Image) (k : Nat) : Nat := (((Image.codes m).take k).filter wordHasLiteral).length
def Image.nlit (m : Image) : Nat := Image.litsBefore m (Image.ninst m)

/-- Instruction `k`'s literal word, zero where it has none. -/
def Image.lit (m : Image) (k : Nat) : Word :=
  if wordHasLiteral (Image.code m k) then Image.word m (12 + Image.ninst m + Image.litsBefore m k) else 0

/-- The bytes of an image before its padding. -/
def Image.bytes (m : Image) : Nat := 48 + 6 * Image.ninst m + 4 * Image.nlit m

/-- Halfword `h` of an image. -/
def Image.half (m : Image) (h : Nat) : BitVec 16 := (Image.word m (h / 2)).extractLsb' (16 * (h % 2)) 16

/-- Placement entry `k`. -/
def Image.entry (m : Image) (k : Nat) : BitVec 16 := Image.half m ((48 + 4 * Image.ninst m + 4 * Image.nlit m) / 2 + k)

/-- Exit entry `k`: its tag action's code and its offset. -/
def Image.exitTact (m : Image) (k : Nat) : Nat := bits (Image.word m (4 + k)) 31 28
def Image.exitOffset (m : Image) (k : Nat) : BitVec 28 := (Image.word m (4 + k)).extractLsb' 0 28
def endOffset : BitVec 28 := 0x8000000

/-- The image that a signed offset in 64-byte units names (R84, R202). -/
def Image.at (m : Image) (off : Int) : Nat := (((m.1 : Int) + 64 * off) % (2 ^ 57 : Int)).toNat

/-- The image an exit names, or `none` for END. -/
def Image.exitTarget (m : Image) (k : Nat) : Option Nat :=
  if Image.exitOffset m k = endOffset then none else some (Image.at m (Image.exitOffset m k).toInt)

/-! ### Words (R108, checks 4 to 7) -/

/-- A word with the defects of checks 6 and 7 taken out of it: a refused tag action, reserved bits, both literal bits. -/
def saneWord (w : Word) : Word :=
  let opc := (opcOf w).toNat
  if opc == 0x4C then w &&& 0xFE1C0000
  else if opc == 0x4D || opc == 0x4E then w &&& 0xFFF3FFFF
  else if 0x7C ≤ opc && opc ≤ 0x7E then w
  else
    let w1 := if w.getLsbD 20 && w.getLsbD 19 then w &&& 0xFFF7FFFF else w
    if 0x60 ≤ opc && opc ≤ 0x6F then w1
    else if 8 < bits w 24 21 then w1 &&& 0xFE1FFFFF else w1

/-- The instruction of a word, as far as checks 4 and 5 decide it. -/
def Image.instr (m : Image) (k : Nat) : Except DecodeError Instr := decode (saneWord (Image.code m k)) (Image.lit m k)
def Image.instr? (m : Image) (k : Nat) : Option Instr := (Image.instr m k).toOption

/-- Check 5 on one word. -/
def wordCheck5 (w lit : Word) : Bool :=
  match decode (saneWord w) lit with
  | .ok i => i.modOk && i.check5
  | .error .value => false
  | .error _ => true

/-- Check 6 on one word. -/
def wordCheck6 (w lit : Word) : Bool :=
  let opc := (opcOf w).toNat
  let raw :=
    if opc == 0x4C || opc == 0x4D || opc == 0x4E then saneWord w == w
    else if 0x60 ≤ opc then true
    else bits w 24 21 ≤ 8
  let tact := !(0x70 ≤ opc && opc < 0x7C) || bits w 24 21 ≤ 8
  raw && tact && (match decode (saneWord w) lit with
    | .ok i => i.check6
    | .error _ => true)

/-- Check 7 on one word. -/
def wordCheck7 (w lit : Word) : Bool :=
  match decode w lit with
  | .ok i => i.check7
  | .error .bothLiterals | .error .noControlLiteral => false
  | .error _ => match decode (saneWord w) lit with
    | .ok i => i.check7
    | .error .noControlLiteral => false
    | .error _ => true

/-! ### Fetching and numbering (R106, R107) -/

/-- What the fetch of an image answers. -/
abbrev Fetched := Except Translated Image

/-- Words of an address space from an address on. -/
def State.readVaWords (s : State) (asid : BitVec 16) (va n : Nat) : Except Translated (List Word) :=
  match s.readVa asid va (4 * n) with
  | .ok bs => .ok ((List.range n).map fun k => BitVec.ofNat 32 (natOfBytes ((bs.drop (4 * k)).take 4)))
  | .error e => .error e

/-- The image has its mark; its sizes mean something. -/
def Image.marked (m : Image) : Bool := bits (Image.word m 0) 31 24 == 0xB1

/-- Fetch one image: its header and exit table, its instruction words, and the rest. -/
def State.fetchImage (s : State) (asid : BitVec 16) (va : Nat) : Fetched :=
  match s.readVaWords asid va 12 with
  | .error e => .error e
  | .ok head =>
    let m : Image := (va, head)
    if !Image.marked m then .ok m
    else match s.readVaWords asid (va + 48) (Image.ninst m) with
      | .error e => .error e
      | .ok codes =>
        let m1 : Image := (va, head ++ codes)
        let total := (Image.bytes m1 + 63) / 64 * 16
        match s.readVaWords asid (va + 48 + 4 * Image.ninst m) (total - 12 - Image.ninst m) with
        | .error e => .error e
        | .ok rest => .ok (va, head ++ codes ++ rest)

/-- The images that an image names, in the order of R106: its exits, then its CALL literals. -/
def Image.successors (m : Image) : List Nat :=
  if !Image.marked m then []
  else
    (List.range (Image.nexit m)).filterMap (Image.exitTarget m) ++
      (List.range (Image.ninst m)).filterMap fun k => match Image.instr? m k with
        | some (.call f) => some (Image.at m f.lit.toInt)
        | _ => none

/-- Fetch the images named and not yet met. A 129th is met and not fetched: numbering ends with it. -/
def State.fetchNew (s : State) (asid : BitVec 16) (known : List Image) : List Nat → Except Translated (List Image)
  | [] => .ok known
  | va :: vas =>
    if known.any fun m => m.1 == va then s.fetchNew asid known vas
    else if 128 ≤ known.length then .ok (known ++ [(va, [])])
    else match s.fetchImage asid va with
      | .error e => .error e
      | .ok m => s.fetchNew asid (known ++ [m]) vas

/-- Breadth-first numbering from image `k` on. A fault of the fetch comes before every failed check, and the successors of an
image that fails one are numbered too (log entry 131). -/
def State.number (s : State) (asid : BitVec 16) (known : List Image) (k : Nat) : Nat → Except Translated (List Image)
  | 0 => .ok known
  | fuel + 1 =>
    if known.length ≤ k ∨ 128 < known.length then .ok known
    else match s.fetchNew asid known (Image.successors (known.getD k (0, []))) with
      | .error e => .error e
      | .ok more => s.number asid more (k + 1) fuel

/-! ### Sites (R99 to R104) -/

/-- The physical tile of a tile along a quadrant's border (R103). -/
def tileNumber (q ltile : Nat) : Nat :=
  let lo := match q with
    | 0 => 0
    | 1 => 8
    | 2 => 40
    | _ => 32
  let hi := match q with
    | 0 => 56
    | 1 => 16
    | 2 => 48
    | _ => 24
  if ltile < 8 then lo + ltile else hi + (ltile - 8)

def entryDx (e : BitVec 16) : Nat := (e.extractLsb' 10 6).toNat
def entryDy (e : BitVec 16) : Nat := (e.extractLsb' 4 6).toNat
def entryQuad (e : BitVec 16) : Nat := (e.extractLsb' 14 2).toNat
def entryTile (e : BitVec 16) : Nat := (e.extractLsb' 10 4).toNat

/-- The class of instruction `k`. -/
def Image.place (m : Image) (k : Nat) : PlaceClass := ((Image.instr? m k).map fun i => i.spec.place).getD .none

/-- The placement width (R100). -/
def Image.width (m : Image) : Nat :=
  1 + (((List.range (Image.ninst m)).filter fun k => Image.place m k == .element).map fun k => entryDx (Image.entry m k)).foldl Nat.max 0

/-- The logical element is one of the task's mesh (R99). -/
def onMesh (n x y : Nat) : Bool :=
  match n with
  | 1 => decide (x < 32 ∧ y < 32)
  | 2 => decide (x < 64 ∧ y < 32)
  | 3 => decide (x < 64 ∧ y < 64) && !(decide (32 ≤ x) && decide (32 ≤ y))
  | _ => decide (x < 64 ∧ y < 64)

/-- Where instruction `k` of an image stands, in replica 0: a logical element, or a physical site. -/
def Task.placeOf (t : Task) (m : Image) (k : Nat) : Site :=
  let e := Image.entry m k
  match Image.place m k with
  | .element | .none => .elem (t.tcb.ancx + entryDx e) (t.tcb.ancy + entryDy e)
  | .selvage => .tile (tileNumber (t.quads.getD (entryQuad e) 0) (entryTile e))
  | .matrix => .issue
  | .engine => .port

/-! ### The checks of R108 -/

/-- A failed check: its reason, and the instruction it names. -/
structure Refused where
  reason : BitVec 8
  inst : Option Nat
  deriving DecidableEq, Repr

/-- The first instruction that fails a test. -/
def Image.firstBad (m : Image) (reason : BitVec 8) (ok : Nat → Bool) : Option Refused :=
  ((List.range (Image.ninst m)).find? fun k => !ok k).map fun k => ⟨reason, some k⟩

def refuseIf (bad : Bool) (reason : BitVec 8) : Option Refused := if bad then some ⟨reason, none⟩ else none

def Image.check1 (m : Image) (first : Bool) : Option Refused :=
  refuseIf (m.1 % 64 != 0 || !Image.marked m || (first && !Image.entryBit m)) 0x01

def Image.check2 (m : Image) : Option Refused :=
  let pad := (List.range ((m.2.length * 4 - Image.bytes m) / 2)).all fun h => Image.half m (Image.bytes m / 2 + h) == 0
  refuseIf (!bitsZero (Image.word m 0) 5 2 || !bitsZero (Image.word m 3) 24 0 || (!Image.convBit m && Image.cnode m != 0) ||
    !((List.range 8).all fun k => decide (k < Image.nexit m) || Image.word m (4 + k) == 0) || !pad) 0x02

def Image.check3 (m : Image) : Option Refused :=
  refuseIf ((List.range (Image.nexit m)).any fun k =>
    decide (7 < Image.exitTact m k) || (Image.exitOffset m k == endOffset && Image.exitTact m k != 0)) 0x05

/-- A target field names a token port of an instruction of the image, or none. -/
def Image.targetOk (m : Image) (t : BitVec 9) : Bool :=
  t == noTarget || (decide ((targetInst t).toNat < Image.ninst m) && (match Image.instr? m (targetInst t).toNat with
    | some i => i.takesToken (targetPort t)
    | none => false))

/-- The targets of an instruction: its target fields, and the trap target of a queue literal. -/
def Image.targets (m : Image) (k : Nat) : List (BitVec 9) :=
  match Image.instr? m k with
  | some (.qput f) | some (.qget f) => [f.t0, queueTrapt f.lit]
  | some i => [i.fields.t0, i.fields.t1]
  | none => []

/-- Check 8 (R108, R189). -/
def Image.check8 (m : Image) (all : List Image) : Option Refused :=
  let own := fun (k : Nat) => (Image.targets m k).all (Image.targetOk m) && (match Image.instr? m k with
    | some i => i.check8
    | none => true)
  let judged := fun (va : Nat) => (List.range (Nat.min 128 all.length)).find? fun b =>
    (all.getD b (0, [])).1 == va && (Image.check1 (all.getD b (0, [])) (b == 0)).isNone
  let exitOk := fun (k : Nat) => match (Image.exitTarget m k).bind judged with
    | none => true
    | some b => match Image.instr? (all.getD b (0, [])) 0 with
      | some i => i.takesToken 0
      | none => false
  match Image.firstBad m 0x06 own with
  | some r => some r
  | none => refuseIf (!((List.range (Image.nexit m)).all exitOk)) 0x06

def Image.exitNumber (m : Image) (k : Nat) : Option Nat :=
  match Image.instr? m k with
  | some (.exit e) => some e.toNat
  | _ => none

def Image.check9 (m : Image) : Option Refused :=
  match Image.firstBad m 0x09 fun k => match Image.exitNumber m k with
    | some e => decide (e < Image.nexit m)
    | none => true with
  | some r => some r
  | none =>
    let used := (List.range (Image.ninst m)).filterMap (Image.exitNumber m)
    refuseIf (!((List.range (Image.nexit m)).all used.contains)) 0x09

/-- The LSID a counted instruction counts, and the frame word a WRITE counts. -/
def Image.lsidOf (m : Image) (k : Nat) : Option Nat :=
  match Image.instr? m k with
  | some i => if i.spec.counted then some i.fields.lsid.toNat else none
  | none => none
def Image.fwOf (m : Image) (k : Nat) : Option Nat :=
  match Image.instr? m k with
  | some (.write f) => some f.fw.toNat
  | _ => none

def Image.check10 (m : Image) : Option Refused :=
  let st := Image.word m 1
  let wr := Image.word m 2
  match Image.firstBad m 0x08 fun k => (match Image.lsidOf m k with
      | some n => st.getLsbD n
      | none => true) && (match Image.fwOf m k with
      | some n => wr.getLsbD n
      | none => true) with
  | some r => some r
  | none =>
    let ls := (List.range (Image.ninst m)).filterMap (Image.lsidOf m)
    let fs := (List.range (Image.ninst m)).filterMap (Image.fwOf m)
    refuseIf (!((List.range 32).all fun n => (!st.getLsbD n || ls.contains n) && (!wr.getLsbD n || fs.contains n))) 0x08

def Image.check11 (m : Image) : Option Refused :=
  refuseIf (Image.convBit m && !(decide (Image.cnode m < Image.ninst m) && (match Image.instr? m (Image.cnode m) with
    | some (.cvt f) => (cvtSfmt f.lit).toNat ≤ 3
    | _ => false))) 0x0D

/-- The privileged instructions (R98). -/
def privileged : Instr → Bool
  | .grant _ | .launch _ | .swr _ | .freeze _ | .thaw _ | .preempt _ => true
  | _ => false

def Image.check12 (m : Image) (priv : Bool) : Option Refused :=
  Image.firstBad m 0x0E fun k => priv || !((Image.instr? m k).map privileged).getD false

def Task.check13 (t : Task) (m : Image) : Option Refused :=
  let w := Image.width m
  Image.firstBad m 0x0A fun k =>
    let e := Image.entry m k
    match Image.place m k with
    | .element => e.extractLsb' 0 4 == 0 && (List.range (Image.rho m)).all fun r =>
        onMesh t.tcb.qcnt (t.tcb.ancx + entryDx e + r * w) (t.tcb.ancy + entryDy e)
    | .selvage => e.extractLsb' 0 10 == 0 && decide (entryQuad e < t.tcb.qcnt)
    | .matrix => e == 0 && t.tcb.mtx
    | .engine => e == 0
    | .none => true

/-- A WORKID names a field of the task's layout (R212). -/
def Task.workidOk (t : Task) (m : Image) (k : Nat) : Bool :=
  match Image.instr? m k with
  | some (.workid f) => decide (bits f.lit 2 0 < t.tcb.widths.length)
  | _ => true

/-- Checks 1 to 13 of one block, in order. -/
def Task.blockChecks (t : Task) (all : List Image) (b : Nat) : Option Refused :=
  let m := all.getD b (0, [])
  let steps : List (Unit → Option Refused) := [
    fun _ => Image.check1 m (b == 0), fun _ => Image.check2 m, fun _ => Image.check3 m,
    fun _ => Image.firstBad m 0x03 fun k => !opcodeRefused (opcOf (Image.code m k)).toNat,
    fun _ => Image.firstBad m 0x04 fun k => wordCheck5 (Image.code m k) (Image.lit m k) && t.workidOk m k,
    fun _ => Image.firstBad m 0x05 fun k => wordCheck6 (Image.code m k) (Image.lit m k),
    fun _ => Image.firstBad m 0x07 fun k => wordCheck7 (Image.code m k) (Image.lit m k),
    fun _ => Image.check8 m all, fun _ => Image.check9 m, fun _ => Image.check10 m, fun _ => Image.check11 m,
    fun _ => Image.check12 m t.tcb.priv, fun _ => t.check13 m]
  steps.findSome? fun f => f ()

/-- The sites that an image's instructions take, one for each replica, as logical elements or physical sites. -/
def Task.slotsOf (t : Task) (m : Image) : List Site :=
  (List.range (Image.ninst m)).flatMap fun k => (List.range (Image.rho m)).map fun r =>
    match t.placeOf m k with
    | .elem x y => .elem (x + r * Image.width m) y
    | u => u

/-- Slots of the engine port that the task needs (R105). -/
def Task.portSlots (t : Task) : Nat := ((t.images.flatMap t.slotsOf).filter fun x => x == .port).length

/-- Check 14. -/
def Task.check14 (t : Task) : Bool :=
  let slots := (t.images.take 128).flatMap t.slotsOf
  t.images.length ≤ 128 && slots.eraseDups.all fun x => decide ((slots.filter fun y => y == x).length ≤ 64)

/-- The first failure of the task's checks: its reason, its instruction, its block and that block's image. -/
def Task.placementFault (t : Task) : Option (Refused × BitVec 9 × Nat) :=
  match (List.range (Nat.min 128 t.images.length)).findSome? fun b =>
    (t.blockChecks t.images b).map fun r => (r, BitVec.ofNat 9 b, (t.images.getD b (0, [])).1) with
  | some x => some x
  | none => if t.check14 then none else some (⟨0x0B, none⟩, 0x1FF, 0)

/-! ### The placed copy (R84, R106, R107, R202, R210) -/

/-- The number of a block, by its image. -/
def Task.blockOf (t : Task) (va : Nat) : Option Nat := (List.range (Nat.min 128 t.images.length)).find? fun b => (t.images.getD b (0, [])).1 == va

/-- The block that an image places. -/
def Task.placeBlock (t : Task) (m : Image) : Block :=
  let exits := (List.range (Image.nexit m)).map fun k =>
    (⟨(decodeTact (BitVec.ofNat 4 (Image.exitTact m k))).getD .keep, (Image.exitTarget m k).map fun va => (t.blockOf va).getD 0,
      Image.exitTarget m k == some m.1⟩ : ExitEntry)
  let callee := fun (k : Nat) => match Image.instr? m k with
    | some (.call f) => (t.blockOf (Image.at m f.lit.toInt)).getD 0
    | _ => 0
  let isCall := fun (k : Nat) => match Image.instr? m k with
    | some (.call _) => true
    | some i => i.fields.tact == .child
    | none => false
  { image := m.1
    rho := Image.rho m
    adepth := bits (Image.word m 0) 11 6 + 1
    conv := if Image.convBit m then some (Image.cnode m) else none
    storeMask := Image.word m 1
    writeMask := Image.word m 2
    exits := exits
    code := (List.range (Image.ninst m)).map fun k => ⟨Image.code m k, Image.lit m k, t.placeOf m k, callee k⟩
    width := Image.width m
    calls := ((List.range (Image.ninst m)).any isCall) || exits.any fun x => x.tact == .child }

/-- The barrier ids that the task's blocks name (R283). -/
def Task.barrierIds (t : Task) : List Nat :=
  (t.images.flatMap fun m => (List.range (Image.ninst m)).filterMap fun k => match Image.instr? m k with
    | some (.barr f) => some (barrId f.lit)
    | some (.bwait f) => if bwaitPhase f.lit then none else some (barrId f.lit)
    | _ => none).eraseDups

/-- The sink instructions of a barrier, or of the phase. -/
def Task.sinksOf (t : Task) (phase : Bool) (ident : Nat) : List (BitVec 7 × BitVec 7) :=
  (List.range (Nat.min 128 t.images.length)).flatMap fun b =>
    let m := t.images.getD b (0, [])
    (List.range (Image.ninst m)).filterMap fun k =>
      let me := (BitVec.ofNat 7 b, BitVec.ofNat 7 k)
      match Image.instr? m k with
      | some (.barr f) => if !phase && barrSink f.lit && barrId f.lit == ident then some me else none
      | some (.eos f) => if phase && eosSink f.lit then some me else none
      | _ => none

/-- The images are fetched: their blocks, and the sinks of the phase. -/
def Task.withImages (t : Task) (ms : List Image) : Task :=
  let t1 := { t with images := ms }
  { t1 with blocks := (ms.take 128).map t1.placeBlock, phases := { t1.phases with sinks := t1.sinksOf true 0 } }

end Sys2Proof.Machine
end

