-- ==== Sys2Proof/Machine/Matrix.lean ====
section
/-!
DEFINITION. The matrix array (R74, R386 to R408): slots and their loads, issue order, multiplication, and the
accumulators.
-/

namespace Sys2Proof.Machine

/-! ### Words and records (R389, R402, R406) -/

/-- The codes of R389. -/
def SlotState.code : SlotState → BitVec 2
  | .free => 0
  | .held => 1
  | .loading => 2
  | .ready => 3

/-- A region of an accumulator (R402). -/
structure Region2 where
  row : Nat
  rows : Nat
  col : Nat
  cols : Nat
  deriving DecidableEq, Repr

def regionWord (w : Word) : Region2 := ⟨bits w 31 25, bits w 24 18 + 1, bits w 17 11, bits w 10 4 + 1⟩

/-- Whether a region word is valid; `reads` bounds its size for READ and PEEK. -/
def regionOk (w : Word) (reads : Bool) : Bool :=
  let r := regionWord w
  bitsZero w 3 0 && decide (r.row + r.rows ≤ 128 ∧ r.col + r.cols ≤ 128) && (!reads || decide (r.rows * r.cols ≤ 4096))

/-- The places of a region's elements, in order. -/
def Region2.places (r : Region2) : List (Nat × Nat) :=
  (List.range r.rows).flatMap fun i => (List.range r.cols).map fun j => (r.row + i, r.col + j)

def Region2.holds (r : Region2) (i j : Nat) : Bool := decide (r.row ≤ i ∧ i < r.row + r.rows ∧ r.col ≤ j ∧ j < r.col + r.cols)

/-- A fault on slot or region state (R406). -/
def State.raiseMatrix (s : State) (id : Nat) (src : Site) (tag : Tag) (code : BitVec 8) (mreason : BitVec 7) (opnd : Word)
    (slot : Option Slot) : State :=
  let d2 : Word := match slot with
    | some x => (0 : BitVec 24) ++ x.st.code ++ x.fmt ++ (0 : BitVec 3)
    | none => 0
  s.raise id (.at code src ((0 : BitVec 11) ++ tag.blk ++ tag.inst ++ mreason) opnd d2 0)

def State.slot (s : State) (h n : Nat) : Slot := (s.hoop h).slots.getD n ⟨.free, 0, 0⟩
def State.withSlot (s : State) (h n : Nat) (f : Slot → Slot) : State := s.withHoop h fun x => { x with slots := x.slots.modify n f }
def slotBase (h n : Nat) : Nat := operandBase h + 0x8000 * n

/-! ### Issue order (R390, R392) -/

inductive Res where
  | slot (n : Nat)
  | acc (n : Nat)
  | book (n : Nat)
  deriving DecidableEq, Repr

inductive Use where
  | read | change | accumulate | peek
  deriving DecidableEq, Repr

/-- What word `j` of a matrix instruction uses. A CLAIM takes no slot until it performs. -/
def matrixUses (i : Instr) (g : Firing) (j : Nat) : List (Res × Use) :=
  let b := (operand i g 1 j).word.toNat
  let c := (operand i g 2 j).word.toNat
  match i with
  | .oslotRelease _ | .oploadSparse _ => [(.slot b, .change)]
  | .oploadDense _ => [(.slot c, .change)]
  | .oploadCodebook f => [(.book (oploadCb f.lit), .change)]
  | .mma f => [(.slot b, .read), (.slot c, .read), (.acc (mmaAcc f.lit), .accumulate)] ++
      (if formOf f.lit = 2 then [(.book (mmaCba f.lit), .read), (.book (mmaCbb f.lit), .read)] else [])
  | .accZero f | .accWrite f => [(.acc (accNum f.lit), .change)]
  | .accRead f | .accStore f => [(.acc (accNum f.lit), .read)]
  | .accPeek f => [(.acc (accNum f.lit), .peek)]
  | _ => []

/-- An earlier use holds a later one of the same thing back. MMAs accumulate in order as they complete, and PEEK waits
for none of them (R401, R404). -/
def Use.holds (earlier later : Use) : Bool :=
  match earlier, later with
  | .read, .read | .read, .peek | .peek, .read | .peek, .peek => false
  | .accumulate, .accumulate | .accumulate, .peek => false
  | _, _ => true

/-- The matrix words of a task that have fired and not completed: each with its place in issue order, which it took when
it fired. -/
def Task.matrixWords (t : Task) : List (OpRec × Nat × Nat) :=
  t.ops.flatMap fun o =>
    if o.instr.spec.place = .matrix then
      ((List.range o.words.length).filter fun j => (o.at j).stage != .done).map fun j => (o, j, (o.at j).pending)
    else []

/-- A word of an operation that has not begun: it has its read, its fault or its turn before it. -/
def OpWord.unbegun (w : OpWord) : Bool := w.stage == .waiting || w.stage == .held || w.stage == .ready

/-- Those ahead of a place. -/
def Task.matrixAhead (t : Task) (place : Nat) : List (OpRec × Nat × Nat) := t.matrixWords.filter fun x => decide (x.2.2 < place)

def OpRec.isClaim (o : OpRec) : Bool := match o.instr with
  | .oslotClaim _ => true
  | _ => false
def OpRec.isRelease (o : OpRec) : Bool := match o.instr with
  | .oslotRelease _ => true
  | _ => false
def OpRec.isMma (o : OpRec) : Bool := match o.instr with
  | .mma _ => true
  | _ => false
def OpRec.isSparse (o : OpRec) : Bool := match o.instr with
  | .oploadSparse _ => true
  | _ => false

/-- A CLAIM waits for a slot and for nothing else. -/
def State.starved (s : State) (t : Task) (place : Nat) : Bool :=
  !((s.hoop t.hoop).slots.any fun x => x.st == .free) && !((t.matrixAhead place).any fun x => x.1.isRelease)

/-- Word `j` of a matrix instruction may begin: everything ahead of it that the rule of issue order makes it wait for
has completed, and the words of its set before it have begun (R392). -/
def State.matrixClear (s : State) (t : Task) (o : OpRec) (j : Nat) : Bool :=
  let place := (o.at j).pending
  let ahead := t.matrixAhead place
  let uses := matrixUses o.instr o.firing j
  let free := fun (n : Nat) => (s.slot t.hoop n).st == .free
  let clash := ahead.any fun x => (matrixUses x.1.instr x.1.firing x.2.1).any fun e =>
    uses.any fun l => e.1 == l.1 && e.2.holds l.2
  !clash && !(o.words.take j).any OpWord.unbegun && (match o.instr with
    | .oslotClaim _ => !(ahead.any fun x => x.1.isRelease || x.1.isClaim)
    | .oslotRelease _ => !(ahead.any fun x => x.1.isClaim && !s.starved t x.2.2)
    | .oploadSparse _ => t.sparse.isNone && !(ahead.any fun x => x.1.isSparse)
    | .mma _ =>
      let mmas := ahead.filter fun x => x.1.isMma
      decide (mmas.length < 2) && mmas.all fun x => (x.1.at x.2.1).stage == .sent
    | _ => true) &&
    !(!o.isClaim && ahead.any (fun x => x.1.isClaim) && uses.any fun u => match u.1 with
      | .slot n => free n && (o.isRelease == false)
      | _ => false)

/-! ### The memory port (R396) -/

/-- The types of segment that the matrix memory port accepts (R396). -/
def matrixTypes : List Nat := [typDram, typShm, typScr, typHost]

/-- The matrix memory port among the units that have a micro-TLB. -/
def matrixPort : Nat := 64

/-- The distances from its offset of the words that a matrix instruction reads or stages. -/
def matrixSpan (i : Instr) (g : Firing) (j : Nat) : List Nat :=
  match i with
  | .oploadDense f =>
    let n := oploadLines f.lit
    if oploadEfmt f.lit = 4 then
      (List.range (16 * n)).map (fun k => 4 * k) ++ (List.range (4 * n)).map fun k => 8192 + 4 * k
    else (List.range (64 * n)).map fun k => 4 * k
  | .oploadCodebook _ => (List.range 8).map fun k => 4 * k
  | .accWrite _ | .accStore _ => (regionWord (operand i g 1 j).word).places.map fun p => 512 * p.1 + 4 * p.2
  | _ => []

/-- The segment, the offset word and the alignment of a matrix instruction that goes to memory. -/
def matrixMemory (i : Instr) (g : Firing) (j : Nat) : Option (BitVec 4 × Word × Nat) :=
  match i with
  | .oploadDense f => some (oploadSeg f.lit, (operand i g 1 j).word, 64)
  | .oploadCodebook f => some (oploadSeg f.lit, (operand i g 1 j).word, 32)
  | .accWrite f | .accStore f => some (accSeg f.lit, (operand i g 2 j).word, 64)
  | _ => none

/-- What the checks of an image answer. -/
inductive Imaged where
  | ok (s : State) (pas : List Nat) (key : BitVec 12)
  | fault (a : Access) (code : BitVec 8) (va : Nat)
  deriving DecidableEq, Repr

/-- The physical addresses of an image's words. -/
def State.imageAddrs (s : State) (t : Task) (seg : BitVec 4) (off : Word) (write : Bool) : List Nat → Imaged
  | [] => .ok s [] 0
  | d :: ds =>
    let a : Access := ⟨seg, off + BitVec.ofNat 32 d, 4, write, false, 0⟩
    if 2 ^ 32 ≤ off.toNat + d then .fault a F_SEG 0
    else match s.addressNow t (some matrixPort) matrixTypes a with
      | .error (code, va) => .fault a code va
      | .ok (pa, key, s1) =>
        match s1.imageAddrs t seg off write ds with
        | .ok s2 pas _ => .ok s2 (pa :: pas) key
        | f => f

/-- The line requests of an image's reads: one for each distinct line, a scratchpad line where staging serves every
word of it (R225, R396). -/
def State.debitImage (s : State) (t : Task) (g : Firing) (seg : BitVec 4) (pas : List Nat) : Except State State :=
  ((pas.map lineOf).eraseDups).foldl (fun r l => match r with
    | .error s1 => .error s1
    | .ok s1 =>
      let whole := (pas.filter fun a => lineOf a == l).all fun a => t.servedByStaging none a 4
      s1.debitLines g 4 (if whole then .scratch else t.lineClass seg l) 1) (.ok s)

/-- A word of a matrix instruction goes on to a stage; its event comes up again. -/
def matrixEvent (o : OpRec) (j task : Nat) : Instr := if o.isMma then .mmaComplete task o.id j else .oploadComplete task o.id j
def State.matrixGo (s : State) (id : Nat) (o : OpRec) (j : Nat) (stage : OpStage) : State :=
  (s.withOpWord id o.id j fun w => { w with stage := stage }).push (matrixEvent o j id)

/-- A word takes its place in issue order as it fires (R390). -/
def State.takeOrder (s : State) (id : Nat) (o : OpRec) (j : Nat) (stage : OpStage) : State :=
  let p := s.fresh
  (s.freshen.withOpWord id o.id j fun w => { w with pending := p }).matrixGo id o j stage

/-- A fault of the memory port: raised at once in the base instance, held in any other (R232, R396). -/
def State.matrixFault (s : State) (id : Nat) (t : Task) (o : OpRec) (j : Nat) (raise : State → State) : State :=
  if t.atBase (o.firing.instAt j) then raise s else s.matrixGo id o j .held

/-- A word reads its image (R231, R396): it waits for the words of its set before it, its checks come in the order of R223, and its data are the words read. -/
def State.matrixRead (s : State) (id : Nat) (t : Task) (o : OpRec) (j : Nat) : State :=
  match matrixMemory o.instr o.firing j with
  | none => s.matrixGo id o j .ready
  | some (seg, off, align) =>
    let store := match o.instr with
      | .accStore _ => true
      | _ => false
    let first : Access := ⟨seg, off + BitVec.ofNat 32 ((matrixSpan o.instr o.firing j).headD 0), 4, store, false, 0⟩
    if (o.words.take j).any fun w => w.stage == .waiting || w.stage == .held then s.block
    else if !matrixTypes.contains (t.segment seg).typ then
      s.matrixFault id t o j fun s => s.raiseAccess id o.firing.src o.firing.tag first F_SEG 0
    else if off.toNat % align != 0 then
      s.matrixFault id t o j fun s => s.raiseMatrix id o.firing.src o.firing.tag F_SEG 0x06 off none
    else match s.imageAddrs t seg off store (matrixSpan o.instr o.firing j) with
      | .fault a code va => s.matrixFault id t o j fun s => s.raiseAccess id o.firing.src o.firing.tag a code va
      | .ok s1 pas key =>
        if store then s1.matrixGo id o j .ready
        else if pas.any fun a => s1.rangeHolds a 4 then s.block
        else match s1.debitImage t o.firing seg pas with
          | .error s2 => s2
          | .ok s2 =>
            match pas.find? fun a => !t.servedByStaging none a 4 && !s2.lineGood a key with
            | some a =>
              let k := pas.idxOf a
              let at' : Access := ⟨seg, off + BitVec.ofNat 32 ((matrixSpan o.instr o.firing j).getD k 0), 4, false, false, 0⟩
              s2.raiseAccess id o.firing.src o.firing.tag at' F_CHECK (t.shownVa at')
            | none =>
              let words := pas.map fun a => BitVec.ofNat 32 (natOfBytes (s2.readVisible t none a 4))
              (s2.withOpWord id o.id j fun w => { w with data := words }).matrixGo id o j .ready

/-! ### Slots (R388, R393, R395, R397) -/

/-- Halfword `k` of a list of words. -/
def halfOf (ws : List Word) (k : Nat) : BitVec 16 := (ws.getD (k / 2) 0).extractLsb' (16 * (k % 2)) 16

/-- The bytes of a dense load, from the start of the slot, and the scale bytes of a C4 load (R388, R395). -/
def denseBytes (efmt lines : Nat) (tr : Bool) (ws : List Word) : List Byte × List Byte :=
  if efmt = 4 then
    ((ws.take (16 * lines)).flatMap (fun w => bytesOfNat w.toNat 4), (ws.drop (16 * lines)).flatMap fun w => bytesOfNat w.toNat 4)
  else if tr then
    ((List.range 128).flatMap fun c => (List.range 128).flatMap fun r =>
      bytesOfNat (if r < lines then (halfOf ws (128 * r + c)).toNat else 0) 2, [])
  else (ws.flatMap fun w => bytesOfNat w.toNat 4, [])

/-- A dense load writes its slot, which becomes READY. -/
def State.finishDense (s : State) (id : Nat) (t : Task) (f : StdForm) (o : OpRec) (j : Nat) : State :=
  let c := operand o.instr o.firing 2 j
  let n := c.word.toNat
  let lines := oploadLines f.lit
  match denseBytes (oploadEfmt f.lit) lines (oploadTr f.lit) (o.at j).data with
  | (body, scales) =>
    let m := (s.mem.writeBytes (slotBase t.hoop n) body).writeBytes (slotBase t.hoop n + 8192) scales
    let mask : BitVec 128 := if oploadTr f.lit then BitVec.allOnes 128 else BitVec.ofNat 128 (2 ^ lines - 1)
    (({ s with mem := m }).withSlot t.hoop n fun x => { x with st := .ready, mask := mask }).finishWord id o.id j [c, c]

/-- One coordinate word, NULL word or EOS of the open load (R397). -/
def State.takeCoordinate (s : State) (id : Nat) (t : Task) (o : OpRec) (j : Nat) (src : Site) (tok : Token) : Except State State :=
  let b := operand o.instr o.firing 1 j
  let n := b.word.toNat
  let w := tok.words.headD 0
  if tok.tag.fmt = 7 then
    match controlKind tok.words with
    | 1 => .ok s
    | 2 => .ok (((s.withSlot t.hoop n fun x => { x with st := .ready }).withTask id fun t => { t with sparse := none }).finishWord id o.id j [b, b])
    | _ => .error (s.raiseMatrix id src o.firing.tag F_FMT 0x05 w (some (s.slot t.hoop n)))
  else if !bitsZero w 15 14 then .error (s.raiseMatrix id src o.firing.tag F_FMT 0x05 w (some (s.slot t.hoop n)))
  else match s.debits id 4 CostClass.t.units 1 with
    | .error s1 => .error (s1.stopShort id 4 (some (o.firing.tag.blk, o.firing.tag.inst)))
    | .ok s1 =>
      let line := bits w 13 7
      let x := s1.slot t.hoop n
      let clean := if x.mask.getLsbD line then s1.mem else s1.mem.writeBytes (slotBase t.hoop n + 256 * line) (List.replicate 256 0)
      .ok (({ s1 with mem := clean.writeBytes (slotBase t.hoop n + 256 * line + 2 * bits w 6 0) (bytesOfNat (bits w 31 16) 2) }).withSlot
        t.hoop n fun x => { x with mask := x.mask ||| (1#128 <<< line) })

/-- The open load takes the words that wait for it, in order of arrival (R397). -/
def State.feedSparse (s : State) (id : Nat) : Nat → State
  | 0 => s
  | n + 1 =>
    match s.task? id with
    | none => s
    | some t =>
      match t.openSparse with
      | none => s
      | some (o, j) =>
        match t.waiting.find? fun w => w.coordinateFor o.firing with
        | none => s
        | some w =>
          match s.fetchPartners t [w] with
          | .error s1 => s1
          | .ok s1 =>
            let s2 := s1.withTask id fun t => t.settleSpill { t with waiting := t.waiting.erase w }
            match s2.takeCoordinate id t o j w.src w.tok with
            | .error s2 => s2
            | .ok s2 => s2.feedSparse id n

/-- The words of a port C token wait, in order (R162, R397). -/
def State.holdCoordinates (s : State) (id : Nat) (fl : Flight) : List Token → State
  | [] => s
  | k :: ks =>
    match s.holdWord id 4096 { fl with tok := k } with
    | .done s1 _ => s1.holdCoordinates id fl ks
    | .stop s1 => s1
    | _ => s

/-- Whether the open load takes a token's words as they come: it is the token's, and none waits ahead. -/
def Task.takesCoordinates (t : Task) (fl : Flight) : Option (OpRec × Nat) :=
  match t.openSparse with
  | some (o, j) =>
    let g := o.firing
    let tag := fl.tok.tag
    if g.site == fl.dst && g.tag.blk == tag.blk && g.tag.inst == tag.inst && g.tag.ctx == tag.ctx &&
        !(t.waiting.any fun w => w.coordinateFor g) then some (o, j) else none
  | none => none

/-- SPARSE_COORDINATE (R397): the words of a port C token go into the open load, or wait. -/
def execSparseCoordinate (fl : Flight) (s : State) : Result :=
  .next <|
    match s.task? fl.task with
    | none => s.stray fl
    | some t =>
      if !t.receives || (t.context? fl.tok.tag.ctx).isNone then s.stray fl
      else
        let toks := if fl.tok.tag.fmt = 7 ∧ controlKind fl.tok.words ≠ 1 then [fl.tok] else singles fl.tok.tag fl.tok.words
        match t.takesCoordinates fl with
        | some (o, j) =>
          match toks.foldl (fun r k => match r with
            | .error s1 => Except.error s1
            | .ok s1 => s1.takeCoordinate fl.task t o j fl.src k) (Except.ok s) with
          | .ok s1 => s1
          | .error s1 => s1
        | none => s.holdCoordinates fl.task fl toks

/-! ### The array (R74, R400) -/

/-- A tile as an MMA reads it. -/
structure Tile where
  mem : Memory
  base : Nat
  fmt : BitVec 3
  mask : BitVec 128
  book : List (BitVec 16)
  deriving DecidableEq, Repr

/-- A subnormal operand is a zero of its sign (R68). -/
def flushed (f : FloatFmt) (w : Nat) : FVal :=
  if w / 2 ^ f.fbits % 2 ^ f.ebits = 0 then .fin (w / 2 ^ (f.ebits + f.fbits) % 2 == 1) 0 0 else f.decode w

/-- Element (l, k) of a tile (R388, R400). -/
def Tile.elem (t : Tile) (l k : Nat) : FVal :=
  if !t.mask.getLsbD l then .fin false 0 0
  else if t.fmt = 4 then
    flushed fmtBF16 (t.book.getD ((t.mem.readWord (t.base + 64 * l + 4 * (k / 8))).toNat / 2 ^ (4 * (k % 8)) % 16) 0).toNat
  else flushed (if t.fmt = 3 then fmtH16 else fmtBF16) (natOfBytes (t.mem.readBytes (t.base + 256 * l + 2 * k) 2))

/-- The exponent of the scale of group `g` of a line; `none` is 0xFF (R74, R400). -/
def Tile.scale (t : Tile) (l g : Nat) : Option Int :=
  if t.fmt = 4 ∧ t.mask.getLsbD l then
    (let e := (t.mem.read (t.base + 8192 + 16 * l + g)).toNat
     if e = 255 then none else some ((e : Int) - 127))
  else some 0

/-- The exact sum of products; `none` where one is NaN or infinities of both signs meet (R74). -/
def groupSum (ps : List (FVal × FVal)) : Option FVal :=
  ps.foldl (fun s p => match s with
    | none => none
    | some v =>
      let x := (p.1.mul p.2).1
      if x.isNaN then none
      else
        let y := (v.add x).1
        if y.isNaN then none else some y) (some (.fin false 0 0))

/-- RoundNE(s) of a group (R74). -/
def groupResult (v : Option FVal) (ea eb : Option Int) : FRes :=
  match v, ea, eb with
  | some (.fin n m e), some a, some b => if m = 0 then (0, 0) else (FVal.fin n m (e + a + b)).toF32
  | some (.inf n), some _, some _ => (FVal.inf n).toF32
  | _, _, _ => (nan32, flagNV)

/-- The K indices of a group. -/
def groupRange (k g : Nat) : List Nat := (List.range (Nat.min 8 (k - 8 * g))).map fun i => 8 * g + i

/-- One accumulator word after `n` K-groups of A × B (R74, R400). -/
def accumulate (a b : Tile) (k row col n : Nat) (acc : Word) : FRes :=
  (List.range n).foldl (fun (r : FRes) g =>
    let s := groupResult (groupSum ((groupRange k g).map fun i => (a.elem row i, b.elem col i))) (a.scale row g) (b.scale col g)
    match fadd r.1 s.1 with
    | (w, fl) => (w, r.2 ||| s.2 ||| fl)) (acc, 0)

def groupsOf (k : Nat) : Nat := (k + 7) / 8

/-- The two tiles of an MMA's word. -/
def State.tiles (s : State) (t : Task) (f : StdForm) (o : OpRec) (j : Nat) : Tile × Tile :=
  let tile := fun (port book : Nat) =>
    let n := (operand o.instr o.firing port j).word.toNat
    let x := s.slot t.hoop n
    (⟨s.mem, slotBase t.hoop n, x.fmt, x.mask, (s.hoop t.hoop).codebooks.getD book []⟩ : Tile)
  (tile 1 (mmaCba f.lit), tile 2 (mmaCbb f.lit))

/-- An accumulator word. -/
def Hoop.accAt (h : Hoop) (n row col : Nat) : Word :=
  match h.accs.find? fun x => x.acc == n && x.row == row && x.col == col with
  | some x => x.word
  | none => 0

/-- Form every word of an accumulator anew. Words that are +0 are not kept. -/
def Hoop.mapAcc (h : Hoop) (n : Nat) (f : Nat → Nat → Word → Word) : Hoop :=
  let mine := (List.range 128).flatMap fun r => (List.range 128).filterMap fun c =>
    let w := f r c (h.accAt n r c)
    if w = 0 then none else some (⟨n, r, c, w⟩ : AccWord)
  { h with accs := h.accs.filter (fun x => decide (x.acc < n)) ++ mine ++ h.accs.filter fun x => decide (n < x.acc) }

/-- An MMA completes: its accumulator, its flags and its slot words (R400, R401). -/
def State.finishMma (s : State) (id : Nat) (t : Task) (f : StdForm) (o : OpRec) (j : Nat) : State :=
  match s.tiles t f o j with
  | (a, b) =>
    let k := mmaK f.lit
    let n := mmaAcc f.lit
    let h := s.hoop t.hoop
    let flags := (List.range 128).foldl (fun fl r => (List.range 128).foldl (fun fl c =>
      fl ||| (accumulate a b k r c (groupsOf k) (h.accAt n r c)).2) fl) (0 : BitVec 5)
    let s1 := s.withHoop t.hoop fun h => h.mapAcc n fun r c w => (accumulate a b k r c (groupsOf k) w).1
    (((s1.raiseFlags id (o.firing.instAt j) flags).releaseLeave t.hoop 4 (o.at j).tick).active id).finishWord id o.id j
      [operand o.instr o.firing 1 j, operand o.instr o.firing 2 j]

/-- The step of an MMA: 3.5 A, in units of 0.125 A (R376, R400). -/
def mmaStep : Nat := 28

/-- An MMA begins: its slots and formats are judged, and it asks for leave (R400). -/
def State.beginMma (s : State) (id : Nat) (t : Task) (f : StdForm) (o : OpRec) (j : Nat) : State :=
  let need : BitVec 3 := BitVec.ofNat 3 (2 + formOf f.lit)
  let b := (operand o.instr o.firing 1 j).word
  let c := (operand o.instr o.firing 2 j).word
  let x := s.slot t.hoop b.toNat
  let y := s.slot t.hoop c.toNat
  let bad := fun (code : BitVec 8) (r : BitVec 7) (w : Word) (z : Slot) => s.raiseMatrix id o.firing.src o.firing.tag code r w (some z)
  if x.st = .free then bad F_SEG 0x02 b x
  else if y.st = .free then bad F_SEG 0x02 c y
  else if x.fmt ≠ need then bad F_FMT 0x03 b x
  else if y.fmt ≠ need then bad F_FMT 0x03 c y
  else ((s.askLeave t.hoop 4 ⟨id, o.id, j, t.tower⟩ (s.leaveStep t.hoop 4 mmaStep))).matrixGo id o j .queued

/-- The charge of an MMA (R362). -/
def mmaUnits (k : Nat) : Nat := (60800000 * k + 127) / 128

/-- An MMA whose leave is granted starts: it debits, or its task stops. Once started it completes after every MMA ahead of it. -/
def State.runMma (s : State) (id : Nat) (t : Task) (f : StdForm) (o : OpRec) (j : Nat) : State :=
  if (o.at j).data.isEmpty then
    match s.debits id 4 (mmaUnits (mmaK f.lit)) 1 with
    | .error s1 => (s1.releaseLeave t.hoop 4 (o.at j).tick).stopShort id 4 (some (o.firing.tag.blk, o.firing.tag.inst))
    | .ok s1 => (s1.withOpWord id o.id j fun w => { w with data := [1] }).matrixGo id o j .sent
  else if (t.matrixAhead (o.at j).pending).any fun x => x.1.isMma then s.block
  else s.finishMma id t f o j

/-! ### Accumulators (R402 to R404) -/

/-- The MMAs in flight ahead of a place that have started on an accumulator, in order. -/
def Task.running (t : Task) (n place : Nat) : List (OpRec × Nat) :=
  ((sortBy (fun x => x.2.2) (t.matrixAhead place)).filter fun x => match x.1.instr with
    | .mma f => mmaAcc f.lit == n && (x.1.at x.2.1).stage == .sent && !(x.1.at x.2.1).data.isEmpty
    | _ => false).map fun x => (x.1, x.2.1)

/-- A word as PEEK sees it: of the K-groups of the MMAs in flight, in order, some number has been applied (R404). -/
def State.peekWord (s : State) (t : Task) (ms : List (OpRec × Nat)) (row col progress : Nat) (acc : Word) : Word :=
  (ms.foldl (fun (r : Word × Nat) m => match m.1.instr with
    | .mma f => match s.tiles t f m.1 m.2 with
      | (a, b) =>
        let n := Nat.min r.2 (groupsOf (mmaK f.lit))
        ((accumulate a b (mmaK f.lit) row col n r.1).1, r.2 - n)
    | _ => r) (acc, progress)).1

/-- The elements of a region as READ or PEEK returns them; each debits T. -/
def State.readRegion (s : State) (id : Nat) (t : Task) (o : OpRec) (j : Nat) (n : Nat) (peek : Bool) : State :=
  let ps := (regionWord (operand o.instr o.firing 1 j).word).places
  match s.debits id 4 CostClass.t.units ps.length with
  | .error s1 => s1.stopShort id 4 (some (o.firing.tag.blk, o.firing.tag.inst))
  | .ok s1 =>
    let h := s1.hoop t.hoop
    let ms := if peek then t.running n (o.at j).pending else []
    let total := (ms.map fun m => match m.1.instr with
      | .mma f => groupsOf (mmaK f.lit)
      | _ => 0).sum
    let out := fun (p : Nat × Nat) =>
      let w := h.accAt n p.1 p.2
      Out.data 1 (if ms.isEmpty then w else s1.peekWord t ms p.1 p.2 (Config.peekProgress s1.fresh p.1 p.2 % (total + 1)) w)
    (s1.freshen.active id).finishWord id o.id j (ps.map out)

/-- WRITE's words go into the accumulator. -/
def State.writeRegion (s : State) (id : Nat) (t : Task) (o : OpRec) (j : Nat) (n : Nat) : State :=
  let b := operand o.instr o.firing 1 j
  let r := regionWord b.word
  let ws := (o.at j).data
  (s.withHoop t.hoop fun h => h.mapAcc n fun row col w =>
    if r.holds row col then ws.getD ((row - r.row) * r.cols + (col - r.col)) 0 else w).finishWord id o.id j [b, b]

/-- STORE stages its region's words one after another (R234, R403). -/
def State.stageRegion (s : State) (id : Nat) (t : Task) (o : OpRec) (j : Nat) (seg : BitVec 4) (off : Word) (key : BitVec 12) (n : Nat) :
    List (Nat × Nat × Nat) → State
  | [] =>
    let b := operand o.instr o.firing 1 j
    s.finishWord id o.id j [b, b]
  | (pa, row, col) :: rest =>
    let w := (s.hoop t.hoop).accAt n row col
    match s.stagePlain o.firing ⟨t.lowQuad, .inst (o.firing.instAt j), 31, pa, bytesOfNat w.toNat 4, key⟩ 4 (t.lineClass seg pa) with
    | .done s1 => s1.stageRegion id t o j seg off key n rest
    | .stopped s1 => s1
    | .full =>
      let a : Access := ⟨seg, off + BitVec.ofNat 32 (512 * row + 4 * col), 4, true, false, 0⟩
      s.raiseAccess id o.firing.src o.firing.tag a F_STAGE (t.shownVa a)

/-! ### Beginning and completing -/

/-- A load into a slot begins (R389): a FREE slot faults. -/
def State.beginLoad (s : State) (id : Nat) (t : Task) (o : OpRec) (j : Nat) (w : Word) (efmt : Nat) : State :=
  let x := s.slot t.hoop w.toNat
  if x.st = .free then s.raiseMatrix id o.firing.src o.firing.tag F_SEG 0x02 w (some x)
  else (s.withSlot t.hoop w.toNat fun _ => ⟨.loading, BitVec.ofNat 3 efmt, 0⟩).matrixGo id o j .sent

/-- A word that nothing ahead holds back begins, and all but loads and multiplications complete at once. -/
def State.matrixBegin (s : State) (id : Nat) (t : Task) (o : OpRec) (j : Nat) : State :=
  let b := operand o.instr o.firing 1 j
  match o.instr with
  | .oslotClaim _ =>
    let slots := (s.hoop t.hoop).slots
    match (List.range slots.length).find? fun n => (s.slot t.hoop n).st == .free with
    | none => s.block
    | some n =>
      let w : Out := .data 0 (BitVec.ofNat 32 n)
      (s.withSlot t.hoop n fun _ => ⟨.held, 0, 0⟩).finishWord id o.id j [w, w]
  | .oslotRelease _ =>
    let x := s.slot t.hoop b.word.toNat
    if x.st = .free then s.raiseMatrix id o.firing.src o.firing.tag F_SEG 0x02 b.word (some x)
    else (s.withSlot t.hoop b.word.toNat fun x => { x with st := .free }).finishWord id o.id j [b, b]
  | .oploadDense f => s.beginLoad id t o j (operand o.instr o.firing 2 j).word (oploadEfmt f.lit)
  | .oploadSparse f =>
    let x := s.slot t.hoop b.word.toNat
    if x.st = .free then s.raiseMatrix id o.firing.src o.firing.tag F_SEG 0x02 b.word (some x)
    else
      let s1 := (s.withSlot t.hoop b.word.toNat fun _ => ⟨.loading, BitVec.ofNat 3 (oploadEfmt f.lit), 0⟩).withTask id fun t => { t with sparse := some o.id }
      (s1.withOpWord id o.id j fun w => { w with stage := .sent }).feedSparse id (t.waiting.length + 1)
  | .oploadCodebook f =>
    let es := (List.range 16).map fun k => halfOf (o.at j).data k
    (s.withHoop t.hoop fun h => { h with codebooks := h.codebooks.set (oploadCb f.lit) es }).finishWord id o.id j [b, b]
  | .mma f => s.beginMma id t f o j
  | .accZero f =>
    let r := regionWord b.word
    (s.withHoop t.hoop fun h => { h with
      accs := h.accs.filter fun x => !(x.acc == accNum f.lit && r.holds x.row x.col) }).finishWord id o.id j [b, b]
  | .accRead f => s.readRegion id t o j (accNum f.lit) false
  | .accPeek f => s.readRegion id t o j (accNum f.lit) true
  | .accWrite f => s.writeRegion id t o j (accNum f.lit)
  | .accStore f =>
    let off := (operand o.instr o.firing 2 j).word
    match s.imageAddrs t (accSeg f.lit) off true (matrixSpan o.instr o.firing j) with
    | .fault a code va => s.matrixFault id t o j fun s => s.raiseAccess id o.firing.src o.firing.tag a code va
    | .ok s1 pas key => s1.stageRegion id t o j (accSeg f.lit) off key (accNum f.lit) (pas.zip (regionWord b.word).places)
  | _ => s

/-- A word that has begun completes. -/
def State.matrixEnd (s : State) (id : Nat) (t : Task) (o : OpRec) (j : Nat) : State :=
  match o.instr with
  | .oploadDense f => (s.active id).finishDense id t f o j
  | .mma f => s.runMma id t f o j
  | _ => s

/-- A word of a matrix instruction at whatever stage it is (R390, R392, R395, R401). The array abandons the words of a task
that is on its way out (R392, R407). -/
def State.matrixStep (s : State) (id op j : Nat) : State :=
  match s.op? id op with
  | none => s
  | some (t, o) =>
    if t.phase.leaving then s
    else match (o.at j).stage with
    | .waiting => if t.halted then s.block else s.matrixRead id t o j
    | .held => if t.halted || !t.atBase (o.firing.instAt j) then s.block else s.matrixRead id t o j
    | .ready => if t.halted || !s.matrixClear t o j then s.block else s.matrixBegin id t o j
    | .queued => s.block
    | .sent => s.matrixEnd id t o j
    | .walking | .reading | .done => s

/-- OPLOAD_COMPLETE (R390, R395): a load, a claim, a release or an accumulator instruction goes on to its completion. -/
def execOploadComplete (task op j : Nat) (s : State) : Result := .next (s.matrixStep task op j)

/-- MMA_COMPLETE (R401). -/
def execMmaComplete (task op j : Nat) (s : State) : Result := .next (s.matrixStep task op j)

/-! ### Firing (R391 to R394, R402) -/

/-- The slot words of word `j`, with their ports' operands. -/
def slotWords (i : Instr) (g : Firing) (j : Nat) : List Word :=
  match i with
  | .oslotRelease _ | .oploadSparse _ => [(operand i g 1 j).word]
  | .oploadDense _ => [(operand i g 2 j).word]
  | .mma _ => [(operand i g 1 j).word, (operand i g 2 j).word]
  | _ => []

/-- The debits that a word's firing makes by itself: an MMA's comes when it starts, and READ and PEEK debit each word
they emit (R391). -/
def firingPasses : Instr → Nat
  | .mma _ | .accRead _ | .accPeek _ => 0
  | _ => 1

/-- A word of a matrix instruction fires: its slot and region words are judged, and it takes its place in issue order. -/
def State.matrixWord (s : State) (i : Instr) (g : Firing) (op j : Nat) : State :=
  let b := (operand i g 1 j).word
  let acc := match i with
    | .accZero _ | .accWrite _ | .accStore _ => some false
    | .accRead _ | .accPeek _ => some true
    | _ => none
  match (slotWords i g j).find? fun w => decide (63 < w.toNat) with
  | some w => s.raiseMatrix g.task g.src g.tag F_SEG 0x01 w none
  | none =>
    if acc.any fun reads => !regionOk b reads then s.raiseMatrix g.task g.src g.tag F_SEG 0x04 b none
    else match s.op? g.task op with
      | none => s
      | some (_, o) => match matrixMemory i g j with
        | some _ => s.takeOrder g.task o j .waiting
        | none => s.takeOrder g.task o j .ready

/-- The words of a matrix set in ascending order (R392). -/
def State.matrixWords (s : State) (i : Instr) (g : Firing) (op j : Nat) : Nat → State
  | 0 => s
  | n + 1 =>
    if !s.runs g.task then s
    else if performs i g j then
      match s.fireWord g i.spec.cost (firingPasses i) with
      | .error s1 => s1
      | .ok s1 => (s1.matrixWord i g op j).matrixWords i g op (j + 1) n
    else match nullStep g s with
      | .error s1 => s1
      | .ok (s1, _) =>
        let outs : List Out := match i with
          | .accRead _ | .accPeek _ => [.null]
          | _ => [.null, .null]
        (s1.finishWord g.task op j outs).matrixWords i g op (j + 1) n

/-- A matrix set begins. -/
def matrixFiring (i : Instr) (g : Firing) (s : State) : State :=
  match s.beginOp i g (List.replicate g.n ⟨.waiting, 0, [], [], 0, [], 0, false, 0⟩) with
  | (op, s1) => s1.matrixWords i g op 0 g.n

/-- OSLOT (R393). -/
def execOslotClaim (f : StdForm) (s : State) : Result := withFiring s (matrixFiring (.oslotClaim f))
def execOslotRelease (f : StdForm) (s : State) : Result := withFiring s (matrixFiring (.oslotRelease f))
/-- OPLOAD (R394 to R398). -/
def execOploadDense (f : StdForm) (s : State) : Result := withFiring s (matrixFiring (.oploadDense f))
def execOploadSparse (f : StdForm) (s : State) : Result := withFiring s (matrixFiring (.oploadSparse f))
def execOploadCodebook (f : StdForm) (s : State) : Result := withFiring s (matrixFiring (.oploadCodebook f))
/-- MMA (R399 to R401). -/
def execMma (f : StdForm) (s : State) : Result := withFiring s (matrixFiring (.mma f))
/-- ACC (R402 to R404). -/
def execAccZero (f : StdForm) (s : State) : Result := withFiring s (matrixFiring (.accZero f))
def execAccRead (f : StdForm) (s : State) : Result := withFiring s (matrixFiring (.accRead f))
def execAccPeek (f : StdForm) (s : State) : Result := withFiring s (matrixFiring (.accPeek f))
def execAccWrite (f : StdForm) (s : State) : Result := withFiring s (matrixFiring (.accWrite f))
def execAccStore (f : StdForm) (s : State) : Result := withFiring s (matrixFiring (.accStore f))

end Sys2Proof.Machine
end

