-- ==== Sys2Proof/Machine/Sched.lean ====
section
/-!
DEFINITION. Launch decrements, the schedulers, and the start of a task up to its first work (R107 to R109, R312 to R322,
R348, R387).
-/

namespace Sys2Proof.Machine

/-! ### Launch decrements and ready notices (R315, R316, R429) -/

/-- A launch error is logged (R316, R485). -/
def State.launchError (s : State) (info : Word) (a : Nat) : State := s.logEvent 0x02 0x3F info a

/-- A notice enters its scheduler's ready queue, if there is room: 4,096 notices (R316, R318). Before bring-up is complete
it waits (R472). -/
def State.enqueueNotice (s : State) (n : Notice) : Option State :=
  let t := s.tower n.tower
  if !s.up || decide (4096 ≤ t.ready.length) then none
  else
    let r : Ready := ⟨n.tcb, n.asid, s.time.toNat, t.nextSeq, none, none, 0, 0, none⟩
    some ((s.withTower n.tower fun t => { t with ready := t.ready ++ [r], nextSeq := t.nextSeq + 1 }).push (.readinessCheck n))

/-- READY_NOTICE_WAIT_END (R316). -/
def execReadyNoticeWaitEnd (n : Notice) (s : State) : Result := .next ((s.enqueueNotice n).getD s.block)

/-- The enabled egress channel that names a line (R427, R429). -/
def State.egressChannel (s : State) (a : Nat) : Option Nat :=
  (List.range 16).find? fun k => (s.egcfg.getD k 0).getLsbD 49 && channelLine (s.egcfg.getD k 0) == a

/-- What a line that has reached zero tells: the host of its channel, or its tower's scheduler. -/
def State.announce (s : State) (a : Nat) : State :=
  let word := fun k => s.mem.readWord (a + 4 * k)
  let tcb : BitVec 64 := word 3 ++ word 2
  match s.egressChannel a with
  | some k => s.sendLink (.egress (ingressNode (s.egcfg.getD k 0)) k tcb)
  | none =>
    let n : Notice := ⟨bits (word 1) 1 0, tcb.toNat, (word 1).extractLsb' 16 16⟩
    (s.enqueueNotice n).getD (s.push (.readyNoticeWaitEnd n))

/-- An earlier decrement of the same commit is still on its way (R316, R329). -/
def State.decrementAhead (s : State) (line : LaunchRef) : Bool :=
  let place := match s.cur with
    | some (_, k) => k
    | none => 0
  line.group != 0 && (s.agenda.take place).any fun x => match x with
    | .event (.launchDecrement l) => l.group == line.group
    | _ => false

/-- LAUNCH_DECREMENT (R316, R317, R329). -/
def execLaunchDecrement (line : LaunchRef) (s : State) : Result :=
  .next <|
    if s.decrementAhead line then s.block
    else match line.pa with
    | none => s.launchError 0xFFFFFFFF 0
    | some a =>
      let word := fun k => s.mem.readWord (a + 4 * k)
      if !(regionOf a).isShared || a % 64 != 0 then s.launchError 0xFFFFFFFF a
      else if !bitsZero (word 1) 15 2 || (word 2).toNat % 64 != 0 || (List.range 12).any fun k => word (4 + k) != 0 then
        s.launchError 0xFFFFFFFF a
      else
        let new := word 0 - 1
        let s1 := s.plainWrite a (bytesOfNat new.toNat 4) 0 partWriter
        if s.wordRefusesWrite a then s1
        else if new = 0 then s1.announce a
        else if new.toInt < 0 then s1.launchError new a else s1

/-! ### The TCB (R220, R221, R312, R313) -/

/-- A segment descriptor, or `none` where it is defective. -/
def segmentOf (lo hi lim attr : Word) : Option Segment :=
  let base := (hi ++ lo : BitVec 64).toNat
  let typ := bits attr 3 0
  let g : Segment := ⟨base, lim.toNat, attr.extractLsb' 20 12, attr.getLsbD 5, attr.getLsbD 4, typ⟩
  let ok := bitsZero attr 19 7 && typ ≤ typLand && (match typ with
    | 0 => true
    | 3 => decide (base + lim.toNat < 2 ^ 23) && base % 64 == 0
    | _ => decide (base + lim.toNat < 2 ^ 57))
  if ok then some g else none

/-- The widths of the work-identifier fields (R313, R323). -/
def widthsOf (w : BitVec 64) : Option (List Nat) :=
  let n := (w.extractLsb' 0 3).toNat
  let ws := (List.range 6).map fun k => (w.extractLsb' (3 + 7 * k) 7).toNat
  if n = 0 then (if ws.all fun x => x == 0 then some [64] else none)
  else if n ≤ 6 ∧ ((ws.take n).all fun x => decide (1 ≤ x ∧ x ≤ 64)) ∧ (ws.take n).sum ≤ 64 ∧ ((ws.drop n).all fun x => x == 0) then
    some (ws.take n)
  else none

/-- The reserved fields and limits of a TCB, by word (R312, R313). -/
def tcbFieldsOk (w : Nat → Word) (wide : Nat → BitVec 64) (asid : BitVec 16) : Bool :=
  bitsZero (w 2) 31 26 && bitsZero (w 2) 3 2 && bitsZero (w 3) 31 16 && bitsZero (w 4) 31 5 && bits (w 4) 4 0 ≤ 24 && w 5 != 0 &&
    bitsZero (w 8) 31 22 && 4 ≤ bits (w 8) 21 16 && bits (w 8) 21 16 ≤ 32 && bitsZero (w 8) 15 12 && bits (w 8) 11 0 != 0 &&
    bitsZero (w 9) 31 28 && (w 9).extractLsb' 0 16 == asid && (w 10).toNat % 256 == 0 && bitsZero (w 11) 31 4 && bits (w 11) 3 0 ≤ 8 &&
    (wide 0).toNat % 64 == 0 && (wide 12).toNat % 256 == 0 && (wide 14).toNat % 4096 == 0 && ((w 2).getLsbD 10 == (wide 14 != 0)) &&
    (wide 18).extractLsb' 45 19 == 0 && ((List.range 12).all fun k => w (20 + k) == 0) &&
    ((List.range 8).all fun k => decide (k < bits (w 11) 3 0) || wide (32 + 2 * k) == 0) && ((List.range 4).all fun k => w (60 + k) == 0)

/-- The TCB that 128 words hold, or `none` where a field, a descriptor or a limit is at fault. -/
def tcbOf (ws : List Word) (asid : BitVec 16) : Option Tcb :=
  let w := fun k => ws.getD k 0
  let wide : Nat → BitVec 64 := fun k => w (k + 1) ++ w k
  let segs := (List.range 16).filterMap fun k => segmentOf (w (64 + 4 * k)) (w (65 + 4 * k)) (w (66 + 4 * k)) (w (67 + 4 * k))
  match widthsOf (wide 18) with
  | none => none
  | some widths =>
    if tcbFieldsOk w wide asid && segs.length == 16 then
      some {
        block := (wide 0).toNat
        ancy := bits (w 2) 25 20
        ancx := bits (w 2) 19 14
        mtx := (w 2).getLsbD 13
        priv := (w 2).getLsbD 12
        shortp := (w 2).getLsbD 11
        pmode := (w 2).getLsbD 10
        prio := bits (w 2) 9 8
        qaff := bits (w 2) 7 4
        qcnt := bits (w 2) 1 0 + 1
        hoopaff := bits (w 3) 15 0
        px := bits (w 4) 4 0
        budget := (w 5).toNat
        topup := (w 6).toNat
        progress := (w 7).toNat
        hiwat := bits (w 8) 21 16
        ctxres := bits (w 8) 11 0
        key := (w 9).extractLsb' 16 12
        asid := (w 9).extractLsb' 0 16
        spillsz := (w 10).toNat
        spill := (wide 12).toNat
        save := (wide 14).toNat
        sched := (wide 16).toNat
        widths := widths
        succ := (List.range (bits (w 11) 3 0)).map fun k => (wide (32 + 2 * k)).toNat
        segs := segs }
    else none

/-! ### Reports and fault records (R312, R314, R342, R483) -/

/-- The report fields of a TCB, by their values (R312). `places` is what PLACES rises by; SHORTF keeps its value where none is
given. -/
structure Report where
  cause : BitVec 8
  flags : BitVec 5
  used : Nat
  unused : Nat
  resume : Word
  tacks : Word
  shortf : Option Word
  places : Nat
  deriving DecidableEq, Repr

/-- The 64-bit report words, and the fields that follow them: TCB bytes 0x0C0 to 0x0EF. -/
def reportBytes (r : Report) (oldShortf oldPlaces : Word) (time : BitVec 64) : List Byte :=
  bytesOfNat r.cause.toNat 4 ++ bytesOfNat r.flags.toNat 4 ++ bytesOfNat r.used 8 ++ bytesOfNat r.unused 8 ++
    bytesOfNat r.resume.toNat 4 ++ bytesOfNat r.tacks.toNat 4 ++ bytesOfNat (r.shortf.getD oldShortf).toNat 4 ++
    bytesOfNat (oldPlaces.toNat + r.places) 4 ++ bytesOfNat time.toNat 8

/-- The report of a task's end is written through its address space; where that faults, the fault is logged (R314,
R485). -/
def State.writeReport (s : State) (tcbVa : Nat) (asid : BitVec 16) (hoop : Nat) (r : Report) : State :=
  let fail := fun (code : BitVec 8) => s.logEvent 0x0D hoop ((0 : BitVec 16) ++ r.cause ++ code) 0
  match s.readVaWords asid (tcbVa + 0xE0) 2 with
  | .ok ws =>
    match s.writeVa asid (tcbVa + 0xC0) (reportBytes r (ws.headD 0) (ws.getD 1 0) s.time) with
    | .ok s1 => s1
    | .error .prot => fail F_PROT
    | .error _ => fail F_XLATE
  | .error .prot => fail F_PROT
  | .error _ => fail F_XLATE

/-- The fault record of a task or of a notice. The network header of the token at fault is a free value (R37). -/
def State.faultRecord (s : State) (c : Cause) (hoop qmask : Nat) (asid : BitVec 16) (tcbVa : Nat) : FaultRecord :=
  let h : BitVec 32 := if c.skind = 0xF then 0 else Config.networkHeader s.fresh
  ⟨c.code, BitVec.ofNat 6 hoop, BitVec.ofNat 4 qmask, asid, BitVec.ofNat 64 tcbVa, s.time, c.d0, c.d1, c.d2, c.d3, c.skind, c.src,
    h.extractLsb' 16 16, h.extractLsb' 0 16, false⟩

/-! ### Readiness (R313) -/

/-- The notice's entry in the ready queue: the oldest whose TCB has not been read. -/
def Tower.unread (t : Tower) (n : Notice) : Option Ready := t.ready.find? fun r => r.tcbVa == n.tcb && r.asid == n.asid && r.checked.isNone && r.saved.isNone

def Tower.dropReady (t : Tower) (seq : Nat) : Tower := { t with ready := t.ready.filter fun r => r.seq != seq }

/-- READINESS_CHECK (R313). -/
def execReadinessCheck (n : Notice) (s : State) : Result :=
  .next <|
    match (s.tower n.tower).unread n with
    | none => s
    | some r =>
      let gone := s.withTower n.tower fun t => t.dropReady r.seq
      let refuse := fun (s : State) (c : Cause) => (s.push (.faultQueueAppend n.tower (s.faultRecord c 0 0 n.asid n.tcb))).freshen
      match s.readVaWords n.asid n.tcb 128 with
      | .error e => refuse gone (.plain (if e = .prot then F_PROT else F_XLATE) 0 0 0 0)
      | .ok ws =>
        match tcbOf ws n.asid with
        | some t =>
          let read := fun (x : Ready) => { x with checked := some t }
          (s.withTower n.tower fun w => { w with ready := modifyWhere (fun (x : Ready) => x.seq == r.seq) read w.ready }).push (.schedulerScan n.tower)
        | none =>
          let b := r.budget.getD (ws.getD 5 0).toNat
          let s1 := gone.writeReport n.tcb n.asid 0 ⟨F_ILL, 0, 0, b, 0, 0, some 0, 0⟩
          refuse s1 (.plain F_ILL (illDetail 0x02 false 0 0x1FF) 0 0 0)

/-! ### Placement (R318 to R320, R387) -/

/-- The ticks a ready task has waited. -/
def State.waited (s : State) (r : Ready) : Nat := s.time.toNat - r.tick

/-- Effective priority (R318). -/
def State.effective (s : State) (t : Tower) (r : Ready) : Nat :=
  let p := (r.checked.map (·.prio)).getD 0
  if t.ageu = 0 then p else Nat.min 3 (p + s.waited r / (4096 * t.ageu.toNat))

/-- One ready task stands before another (R318). -/
def State.before (s : State) (t : Tower) (a b : Ready) : Bool :=
  let pa := s.effective t a
  let pb := s.effective t b
  decide (pb < pa ∨ (pa = pb ∧ (a.tick < b.tick ∨ (a.tick = b.tick ∧ a.seq ≤ b.seq))))

/-- Insert into an ordered list. -/
def insertLe {α : Type} (le : α → α → Bool) (x : α) : List α → List α
  | [] => [x]
  | y :: ys => if le x y then x :: y :: ys else y :: insertLe le x ys

/-- The tasks of a scheduler whose TCB has been read, in its order. -/
def State.readyOrder (s : State) (k : Nat) : List Ready :=
  let t := s.tower k
  (t.ready.filter fun r => r.checked.isSome).foldl (fun l r => insertLe (s.before t) r l) []

/-- A quadrant of a hoop that no task holds. -/
def State.quadFree (s : State) (h q : Nat) : Bool := (s.quadHolder (h, q)).isNone

/-- No task holds a hoop's matrix array. -/
def State.matrixFree (s : State) (h : Nat) : Bool := !s.tasks.any fun t => t.hoop == h && t.phase != .saved && t.tcb.mtx

/-- A set of affinity bits allows a number; zero allows any. -/
def allows (aff n : Nat) : Bool := aff == 0 || aff.testBit n

/-- The quadrants a ready task may take on a hoop. -/
def State.openQuads (s : State) (h : Nat) (c : Tcb) (seq : Nat) : List Nat :=
  (List.range 4).filter fun q => allows c.qaff q && s.quadFree h q &&
    !s.reserved.any fun r => r.hoop == h && r.quad == q && r.seq != seq

/-- The task fits a hoop (R319). -/
def State.fits (s : State) (h : Nat) (c : Tcb) (seq : Nat) : Bool :=
  allows c.hoopaff (h % 16) && decide (c.qcnt ≤ (s.openQuads h c seq).length) && (!c.mtx || s.matrixFree h)

/-- The hoops of a tower. -/
def hoopsOf (k : Nat) : List Nat := (List.range 16).map fun i => 16 * k + i

/-- The hoop a ready task goes to. -/
def State.hoopFor (s : State) (k : Nat) (r : Ready) : Option Nat :=
  r.checked.bind fun c => (hoopsOf k).find? fun h => s.fits h c r.seq

/-- The task that holds a scheduler up is still ready. -/
def State.heldReady (s : State) (k : Nat) : Option Ready :=
  (s.tower k).held.bind fun q => (s.readyOrder k).find? fun r => r.seq == q

/-- The first task of a scheduler's order has waited so long that no other is placed until it is (R320). -/
def State.noteHeld (s : State) (k : Nat) : State :=
  let t := s.tower k
  if (s.heldReady k).isSome then s
  else match s.readyOrder k with
    | r :: _ =>
      let long := t.holdu != 0 && decide (4096 * t.holdu.toNat ≤ s.waited r)
      s.withTower k fun t => { t with held := if long then some r.seq else none }
    | [] => s.withTower k fun t => { t with held := none }

/-- The task a scan places: the first that fits, or only the one that holds the scheduler up (R320). -/
def State.nextPlaced (s : State) (k : Nat) : Option (Ready × Nat) :=
  (match s.heldReady k with
   | some r => [r]
   | none => s.readyOrder k).findSome? fun r => (s.hoopFor k r).map fun h => (r, h)

/-- A placed task's matrix array: every slot free, every accumulator zero (R387). -/
def State.clearMatrix (s : State) (h : Nat) : State :=
  s.withHoop h fun x => { x with slots := List.replicate 64 ⟨.free, 0, 0⟩, accs := [] }

/-- A ready task takes its hoop and quadrants (R319, R322). A saved task keeps its state. -/
def State.place (s : State) (k : Nat) (r : Ready) (h : Nat) (c : Tcb) : State :=
  let quads := (s.openQuads h c r.seq).take c.qcnt
  let s0 := { (s.withTower k fun t => t.dropReady r.seq) with reserved := s.reserved.filter fun x => !(x.seq == r.seq && x.hoop / 16 == k) }
  let s1 := if c.mtx then s0.clearMatrix h else s0
  let go := fun (t : Task) => { t with hoop := h, tower := k, quads := quads, phase := .fetching, frozen := .none, placedAt := s.time.toNat }
  match r.saved with
  | some id => (s1.withTask id go).push (.blockFetch id)
  | none =>
    let id := s1.nextTask
    let t := Task.new id r.tcbVa c k h quads
    let b := r.budget.getD c.budget
    ({ s1 with
      nextTask := id + 1
      tasks := s1.tasks ++ [{ t with
        readyTick := r.tick, placedAt := s.time.toNat, account := b * 2 ^ c.px, budget := b, packets := b, reissue := r.budget.isSome
        resumeIn := r.resume, tacksIn := r.tacks }] }).push (.blockFetch id)

/-- SCHEDULER_SCAN (R319, R320): one task is placed, and the scheduler scans again. -/
def execSchedulerScan (tower : Nat) (s : State) : Result :=
  .next <|
    if !s.up then s
    else
      let s1 := s.noteHeld tower
      match s1.nextPlaced tower with
      | none => s1
      | some (r, h) =>
        match r.checked with
        | none => s1
        | some c => (s1.place tower r h c).push (.schedulerScan tower)

/-- AGING_STEP (R318, R319): the rise is a change, on which the scheduler scans. -/
def execAgingStep (tower _task : Nat) (s : State) : Result := .next (s.push (.schedulerScan tower))

/-- The ready tasks of a tower that take an aging step at this tick. -/
def State.ages (s : State) (k : Nat) : Bool :=
  let t := s.tower k
  t.ageu != 0 && t.ready.any fun r => s.waited r != 0 && s.waited r % (4096 * t.ageu.toNat) == 0

/-! ### The steps of a start (R107, R322) -/

/-- BLOCK_FETCH (R107, R322 step 1). A saved task keeps the instruction tables it was saved with. -/
def execBlockFetch (task : Nat) (s : State) : Result :=
  .next <|
    match s.task? task with
    | none => s
    | some t =>
      if t.phase != .fetching then s
      else
        match (match s.fetchImage t.tcb.asid t.tcb.block with
          | .error e => Except.error e
          | .ok m => s.number t.tcb.asid [m] 0 130) with
        | .error .prot => s.raiseUnstated task .unit F_PROT
        | .error _ => s.raiseUnstated task .unit F_XLATE
        | .ok ms =>
          (s.withTask task fun t =>
            let t1 := t.withImages ms
            { (if t.nextSeq = 0 then t1 else { t with images := ms }) with phase := .resources }).push (.launchResources task)

/-- The hoop's barriers that tasks hold. -/
def State.barriersHeld (s : State) (h : Nat) : Nat :=
  ((s.tasks.filter fun t => t.hoop == h && t.phase != .saved).map fun t => t.barriers.length).sum

/-- The slots of a hoop's engine port that tasks hold (R105). -/
def State.portSlotsHeld (s : State) (h : Nat) : Nat :=
  ((s.tasks.filter fun t => t.hoop == h && t.phase != .saved).map (·.slots)).sum

/-- The slots that a task waits for: a task with more than the port has waits for none, and fails check 14. -/
def Task.slotsWanted (t : Task) : Nat := if t.portSlots ≤ 64 then t.portSlots - t.slots else 0

/-- The barriers that a task still has to take: those its blocks name, or those it was saved with. -/
def Task.barriersWanted (t : Task) : List Nat := t.barrierIds.filter fun b => !t.barriers.any fun x => x.ident == b

/-- LAUNCH_RESOURCES (R105, R205, R283, R322 step 2): each resource is taken as it becomes free. -/
def execLaunchResources (task : Nat) (s : State) : Result :=
  .next <|
    match s.task? task with
    | none => s
    | some t =>
      if t.phase != .resources then s
      else
        let more := Nat.min (t.tcb.ctxres - t.reserve) (s.unreserved t.hoop)
        let room := 256 - s.barriersHeld t.hoop
        let fresh := (t.barriersWanted.take room).map fun b => (⟨b, t.sinksOf false b, [], 0⟩ : Barrier)
        let slots := Nat.min t.slotsWanted (64 - s.portSlotsHeld t.hoop)
        let s1 := s.withTask task fun t => { t with
          reserve := t.reserve + more, barriers := t.barriers ++ fresh, slots := t.slots + slots }
        match s1.task? task with
        | none => s1
        | some t1 =>
          if t1.reserve < t1.tcb.ctxres || !t1.barriersWanted.isEmpty || t1.slotsWanted != 0 then s1.block
          else (s1.withTask task fun t => { t with phase := .levelling }).push (.meterLevel task)

/-- PLACEMENT_CHECK (R108, R109, R322 steps 4 and 5). -/
def execPlacementCheck (task : Nat) (s : State) : Result :=
  .next <|
    match s.task? task with
    | none => s
    | some t =>
      if t.phase != .checking then s
      else match t.placementFault with
        | some (r, blk, va) =>
          s.raise task (.plain F_ILL (illDetail r.reason r.inst.isSome (BitVec.ofNat 7 (r.inst.getD 0)) blk) 0 (vaLo va) (vaHi va))
        | none =>
          if t.nextSeq = 0 then (s.withTask task fun t => { t with phase := .running }).push (.entryInjection task)
          else (s.withTask task fun t => { t with phase := .starting }).push (.restoreTask task)

/-! ### Pre-emption by the scheduler (R346, R348, R407) -/

/-- The phases before step 5 of R322. -/
def Phase.starts : Phase → Bool
  | .fetching | .resources | .levelling | .checking | .starting => true
  | _ => false

/-- A SAVE of the task would be carried out as ABORT (R346, R407). -/
def State.saveAborts (s : State) (t : Task) : Bool :=
  t.phase.starts || t.rowsSent || t.tcb.mtx || s.locks.any fun l => l.task == t.id

/-- A task that R348 may choose as a victim for a task of priority `prio`. -/
def State.victimFor (s : State) (prio : Nat) (t : Task) : Bool :=
  decide (t.tcb.prio < prio) && !t.phase.committed && !t.phase.leaving && !(t.tcb.pmode && s.saveAborts t)

/-- The victims that let a task fit a hoop, in the order of R348: lowest priority, then latest placement. `none` says
that they would not. -/
def State.victimsOn (s : State) (h : Nat) (c : Tcb) (seq : Nat) : Option (List Task) :=
  if !allows c.hoopaff (h % 16) then none
  else
    let le := fun (a b : Task) => decide (a.tcb.prio < b.tcb.prio ∨ (a.tcb.prio = b.tcb.prio ∧ b.placedAt ≤ a.placedAt))
    let all := (s.tasks.filter fun t => t.hoop == h && t.phase != .saved && s.victimFor c.prio t).foldl (fun l t => insertLe le t l) []
    let useful := fun (t : Task) => (t.quads.any fun q => allows c.qaff q) || (c.mtx && t.tcb.mtx)
    let gain := fun (ts : List Task) => (s.openQuads h c seq).length +
      ((ts.flatMap (·.quads)).filter fun q => allows c.qaff q).length
    let matrixOk := fun (ts : List Task) => !c.mtx || s.matrixFree h || ts.any fun t => t.tcb.mtx
    let first := if c.mtx && !s.matrixFree h then all.filter fun t => t.tcb.mtx else []
    let rest := (all.filter useful).filter fun t => !first.any fun f => f.id == t.id
    ((List.range (rest.length + 1)).map fun n => first ++ rest.take n).find? fun ts => decide (c.qcnt ≤ gain ts) && matrixOk ts

/-- The first in a scheduler's order has waited long enough, with pre-emption enabled, and fits no hoop. -/
def State.preemptFor (s : State) (k : Nat) : Option (Ready × Tcb) :=
  let t := s.tower k
  match s.readyOrder k with
  | r :: _ =>
    match r.checked with
    | some c =>
      if t.pren && decide (4096 * t.pwaitu.toNat ≤ s.waited r) && (s.hoopFor k r).isNone &&
          !s.reserved.any fun x => x.seq == r.seq && x.hoop / 16 == k then some (r, c) else none
    | none => none
  | [] => none

/-- PREEMPTION_WAIT_ELAPSED (R348). -/
def State.preemptVictims (s : State) (tower : Nat) : State :=
  match s.preemptFor tower with
  | none => s
  | some (r, c) =>
    let options := (hoopsOf tower).filterMap fun h => (s.victimsOn h c r.seq).map fun ts => (h, ts)
    match options.foldl (fun best x => match best with
      | some b => if (x : Nat × List Task).2.length < (b : Nat × List Task).2.length then some x else some b
      | none => some x) none with
    | none => s
    | some (h, ts) =>
      ts.foldl (fun s t => s.push (.preemptFreeze t.id t.tcb.pmode)) { s with
        reserved := s.reserved ++ ts.flatMap fun t => t.quads.map fun q => ⟨h, q, r.seq⟩ }

def execPreemptionWaitElapsed (tower : Nat) (s : State) : Result := .next (s.preemptVictims tower)

end Sys2Proof.Machine
end

