-- ==== Sys2Proof/Machine/TaskEnd.lean ====
section
/-!
DEFINITION. The end of a task: commit (R298 to R304), abort and parking (R339 to R343), the fault queue (R342, R483), and
what TACK makes durable (R371).
-/

namespace Sys2Proof.Machine

/-! ### Draining (R234, R263, R268, R298) -/

/-- The physical quadrants of a task as a mask. -/
def Task.qmask (t : Task) : Nat := (t.quads.map fun q => 2 ^ q).sum

/-- The runs of bytes that a list of optional bytes holds, from address `a`. -/
def byteRuns (a : Nat) : List (Option Byte) → List (Nat × List Byte)
  | [] => []
  | none :: bs => byteRuns (a + 1) bs
  | some b :: bs =>
    match byteRuns (a + 1) bs with
    | (c, ds) :: rest => if c = a + 1 then (a, b :: ds) :: rest else (a, [b]) :: (c, ds) :: rest
    | [] => [(a, [b])]

/-- One line of staged writes drains: the newest byte of each address (R234), in runs, or as one whole line. -/
def State.drainLine (s : State) (who : Writer) (line : Nat) (ws : List Staged) : State :=
  let key := ((ws.getLast?).map (·.key)).getD 0
  let byte := fun (k : Nat) => ((ws.filter fun w => w.holds (line + k)).getLast?).map fun w => w.byte (line + k)
  (byteRuns line ((List.range 64).map byte)).foldl (fun s r => s.plainWrite r.1 r.2 key who) s

/-- The key a line was last written under. -/
def State.lineKeyOf (s : State) (a : Nat) : BitVec 12 :=
  match s.lineKeys.find? fun k => k.line == lineOf a with
  | some k => k.key
  | none => 0

/-- A staged structure or bank operation is applied at its word (R263, R268). -/
def State.drainOp (s : State) (t : Task) (o : StagedOp) : State :=
  match o.what with
  | .write w fmt => s.makeFull o.pa w fmt
  | .clear => match s.wordAt o.pa with
    | some w => if w.code = .full then s.clearWord o.pa else s
    | none => s
  | .atomic op b c => (s.bankApply t o.pa (s.lineKeyOf o.pa) op b c).2.2

/-- The first `n` committed staged writes, in commit order. -/
def Task.committedLines (t : Task) (n : Nat) : List Staged := (t.staged.filter fun w => w.owner == .committed).take n

/-- A list without the committed entries of a line among its first `n` committed ones. -/
def withoutLine (line : Nat) : Nat → List Staged → List Staged
  | _, [] => []
  | n, w :: ws =>
    if w.owner == .committed && n != 0 then
      (if lineOf w.pa == line then withoutLine line (n - 1) ws else w :: withoutLine line (n - 1) ws)
    else w :: withoutLine line n ws

/-- One act of a drain (R298): a plain line, any one of those left, and then the staged operations one by one in order.
`none` says that the drain is done. `n` and `cut` bound what it takes. -/
def State.drainOne (s : State) (t : Task) (n cut : Nat) : Option State :=
  let ws := t.committedLines n
  let slot := slotWriter t.slot
  match (ws.map fun w => lineOf w.pa).eraseDups with
  | l :: ls =>
    match s.pick (ls.length + 1) with
    | (k, s1) =>
      let line := (l :: ls).getD k l
      let mine := ws.filter fun w => lineOf w.pa == line
      let less := fun (x : Tacking) => { x with lines := x.lines - mine.length }
      some ((s1.drainLine slot line mine).withTask t.id fun t => { t with
        staged := withoutLine line n t.staged, tacking := t.tacking.map less })
  | [] =>
    match t.stagedOps.find? fun o => o.order.any fun k => decide (k < cut) with
    | some o => some ((s.drainOp t o).withTask t.id fun t => { t with stagedOps := t.stagedOps.erase o })
    | none => none

/-- COMMIT_DRAIN (R298, R300 step 3, R371 step 3): the drain goes on, or its tokens go out. A TACK first waits for the
operations that it took. -/
def execCommitDrain (task : Nat) (s : State) : Result :=
  .next <|
    match s.task? task with
    | none => s
    | some t =>
      match t.tacking with
      | some k =>
        let open' := k.waits.any fun x => match t.op? x.1 with
          | some o => (o.at x.2).stage != .done
          | none => false
        if open' then s.block
        else match s.drainOne t k.lines k.cut with
          | some s1 => s1.push (.commitDrain task)
          | none => s.push (.commitTokenSend task)
      | none =>
        if t.phase != .draining then s
        else match s.drainOne t t.staged.length t.commits with
          | some s1 => s1.push (.commitDrain task)
          | none => (s.withTask task fun t => { t with phase := .tokens }).push (.commitTokenSend task)

/-! ### Tokens (R306) -/

/-- A token goes to every receiver of the task's rows, and each owes its acknowledgement. -/
def State.sendTokens (s : State) (t : Task) (commit : Bool) : State :=
  let me : Sender := ⟨s.node, t.id⟩
  t.receivers.foldl (fun s r =>
    if commit then s.dispatch r.node (.commitTokenReceive me) (.commitToken r.node me)
    else s.dispatch r.node (.abortTokenReceive me) (.abortToken r.node me))
    (s.withTask t.id fun t => { t with receivers := t.receivers.map fun r => { r with owed := true } })

/-- COMMIT_TOKEN_SEND (R300 steps 4 and 5, R371): every drained write has performed, for one step is seen by all. -/
def execCommitTokenSend (task : Nat) (s : State) : Result :=
  .next <|
    match s.task? task with
    | none => s
    | some t => if t.phase = .tokens ∨ t.tacking.isSome then (s.sendTokens t true).push (.commitRelease task) else s

/-! ### Leaving the hoop (R52, R269, R341, R355) -/

/-- The bank flag words of a task are read and cleared (R269). -/
def State.takeBankFlags (s : State) (t : Task) : BitVec 5 × State :=
  let mine := fun (b : BankFlags) => b.slot == t.slot && t.banks.contains b.bank
  ((s.bankFlags.filter mine).foldl (fun fl b => fl ||| b.flags) 0,
    ({ s with bankFlags := s.bankFlags.filter fun b => !mine b }).withTask t.id fun t => { t with banks := [] })

/-- The task's quadrants, matrix array, barriers, slots and contexts are free, and its tower's scheduler scans (R52, R319,
R341). -/
def State.freeTask (s : State) (id : Nat) : State :=
  match s.task? id with
  | none => s
  | some t =>
    let s1 := (s.retire id (t.contexts.map (·.ctx))).unbindEpisodes t.tower fun b => b.1 == id
    ({ s1 with tasks := s1.tasks.filter fun t => t.id != id }).push (.schedulerScan t.tower)

/-- The report of a task's end, by its cause (R312, R314, R383): a re-issue that ends with another cause than F_SHORT leaves the
figure of the stop before it. -/
def Task.report (t : Task) (cause : BitVec 8) : Report :=
  let shortf := if cause = F_SHORT then some t.shortf else if cause != 0 && t.reissue then none else some 0
  ⟨cause, t.flags, t.used, t.unused, t.resume, t.tacks, shortf, 1⟩

def State.reportTask (s : State) (id : Nat) (cause : BitVec 8) : State :=
  match s.task? id with
  | none => s
  | some t => s.writeReport t.tcbVa t.tcb.asid t.hoop (t.report cause)

/-! ### TACK (R371) -/

/-- The at-once operations and engine commands, which a TACK waits for (R257, R371). -/
def atOnce : Instr → Bool
  | .ld _ _ _ | .ldv _ _ | .sopenRead _ _ | .sopenWrite _ _ | .sindRead _ _ | .sindWrite _ _ | .iread _ => false
  | .grant _ | .trap _ | .srd _ | .swr _ | .freeze _ | .thaw _ | .preempt _ => true
  | i => fenced i || isCommand i

/-- The words of at-once operations that have left their sites. -/
def Task.issuedWords (t : Task) : List (Nat × Nat) :=
  (t.ops.filter fun o => atOnce o.instr).flatMap fun o =>
    ((List.range o.words.length).filter fun j => (o.at j).stage == .sent || (o.at j).stage == .queued).map fun j => (o.id, j)

/-- A TACK at its window base takes the committed set as it stands, once no other TACK of the task performs (R371). -/
def State.beginTack (s : State) (id : Nat) (t : Task) (o : OpRec) (j : Nat) : State :=
  if t.tacking.isSome then s.block
  else
    let k : Tacking := ⟨o.id, j, t.issuedWords, (t.staged.filter fun w => w.owner == .committed).length, t.commits⟩
    ((s.withOpWord id o.id j fun w => { w with stage := .sent }).withTask id fun t =>
      { t with tacking := some k, rowsSent := false }).push (.commitDrain id)

/-- A TACK is done: RESUME and TACKS stand, and its word goes on (R371 steps 4 and 5). -/
def State.endTack (s : State) (id : Nat) (t : Task) (k : Tacking) : State :=
  let done := fun (w : Word) (s : State) => s.withTask id fun t => { t with resume := w, tacks := t.tacks + 1, tacking := none }
  match t.op? k.op with
  | none => s.withTask id fun t => { t with tacking := none }
  | some o =>
    let a := operand o.instr o.firing 0 k.j
    let w := match a with
      | .data _ w => w
      | _ => 0
    (done w s).finishWord id k.op k.j [a, a]

/-! ### Commit (R300) -/

/-- COMMIT_RELEASE (R300 steps 5 to 7): once every acknowledgement has come, a TACK is done, or the task's flags are
merged, its report written and its launch lines decremented: the successors in entry order, then the list. -/
def execCommitRelease (task : Nat) (s : State) : Result :=
  .next <|
    match s.task? task with
    | none => s
    | some t =>
      if t.receivers.any (·.owed) then s.block
      else match t.tacking with
        | some k => s.endTack task t k
        | none =>
          if t.phase != .tokens then s
          else match s.takeBankFlags t with
            | (fl, s1) =>
              let s2 := ((s1.withTask task fun t => { t with flags := t.flags ||| fl }).settle task true false).reportTask task 0
              let lines := (t.tcb.succ.map fun va => match s2.translate t.tcb.asid va true none with
                | .ok pa => some pa
                | _ => none) ++ t.launches.map some
              (s2.pushAll (lines.map fun a => .launchDecrement ⟨a, task⟩)).freeTask task

/-- The reader entries of a committing task are cancelled, whatever word they wait for (R266). -/
def State.cancelReaders (s : State) (id : Nat) (t : Task) : State :=
  (t.ops.filter fun o => o.instr matches .iread _).foldl (fun s o =>
    if o.words.any fun w => w.stage == .reading && !w.dropped then
      (s.withOp id o.id fun o => { o with words := o.words.map fun w =>
        if w.stage == .reading || w.stage == .queued then { w with dropped := true } else w }).push (.readerCancel id o.id)
    else s.withOp id o.id fun o => { o with words := o.words.map fun w => if w.stage == .queued then { w with dropped := true } else w }) s

/-- A CLAIM that waits for a slot keeps no commit waiting (R392). -/
def State.dropClaims (s : State) (id : Nat) (t : Task) : State :=
  (t.ops.filter OpRec.isClaim).foldl (fun s o => s.dropOp id o.id) s

/-- TASK_COMMIT (R300 steps 1 and 2): the streams close, a lock that is held ends the task with F_LOCK, and the task waits
for every operation it has outstanding. -/
def execTaskCommit (task : Nat) (s : State) : Result :=
  .next <|
    match s.task? task with
    | none => s
    | some t =>
      if t.phase != .ending then s
      else if t.halted then s.block
      else
        let s1 := t.openStreams.foldl (fun s x => s.sclose task x.sid) s
        match s1.locks.find? fun l => l.task == task with
        | some l => s1.raise task (.plain F_LOCK 0 0 (lockId l.bank l.slot) 3)
        | none =>
          let s2 := (s1.cancelReaders task t).dropClaims task t
          match s2.task? task with
          | none => s2
          | some t2 =>
            if t2.tacking.isSome || !t2.ops.isEmpty then s2.block
            else (s2.withTask task fun t => { t with phase := .draining }).push (.commitDrain task)

/-! ### Abort (R339, R341, R343) -/

/-- What a task's abort takes from one of its operations: a command that waits is withdrawn, with what it contributed, and
the array abandons what it has (R341, R392). -/
def State.withdrawOp (s : State) (id : Nat) (o : OpRec) : State :=
  let matrix := o.instr.spec.place = .matrix
  let mine := fun (c : Contribution) => c.sender.node == s.node && c.sender.task == id && c.op == o.id
  let s1 := { s with
    collectives := s.collectives.filter fun c => !mine c
    agenda := s.agenda.filter fun x => match x with
      | .event (.collContribution c) => !mine c
      | _ => true }
  (List.range o.words.length).foldl (fun s j =>
    let w := o.at j
    if w.stage = .done then s
    else if matrix then s.finishWord id o.id j []
    else if w.stage = .queued ∧ isCommand o.instr then s.endCommand id o.id j
    else s) s1

/-- The structure words that a task's staged writes have marked are unmarked, but for those of operations that stay (R263). -/
def State.unmarkStaged (s : State) (t : Task) (kept : StagedOp → Bool) : State :=
  let writes := t.stagedOps.filter fun o => match o.what with
    | .write _ _ => true
    | _ => false
  let stays := fun (a : Nat) => writes.any fun o => kept o && o.pa == a
  ((writes.map (·.pa)).filter fun a => !stays a).foldl (fun s a => s.unmarkOwn t.id a) s

/-- What a TACK has taken still drains (R371). -/
def Task.tackKeeps (t : Task) (o : StagedOp) : Bool :=
  match t.tacking, o.order with
  | some k, some n => decide (n < k.cut)
  | _, _ => false

/-- The committed staged writes and operations of a task are freed unwritten, but for what a TACK has taken (R234, R371). -/
def State.freeCommitted (s : State) (id : Nat) (t : Task) : State :=
  let lines := match t.tacking with
    | some k => t.committedLines k.lines
    | none => []
  s.withTask id fun t => { t with staged := lines, stagedOps := t.stagedOps.filter t.tackKeeps }

/-- TASK_ABORT (R339, R341, R343): nothing staged becomes visible, streams close, locks are released and what waits is
withdrawn. A task that is frozen by a violation keeps its matching stores and its staging for inspection. -/
def execTaskAbort (task : Nat) (s : State) : Result :=
  .next <|
    match s.task? task with
    | none => s
    | some t =>
      if t.phase != .aborting then s
      else
        let dead := fun (_ : InstKey) => true
        let keep := t.frozen == .byViolation
        let s0 := s.unmarkStaged t t.tackKeeps
        let s1 := if keep then ((s0.closeStreams task dead).dropOps task dead).dropLocks task dead else s0.dropInstances task dead
        match s1.task? task with
        | none => s1
        | some t1 =>
          let s2 := t1.ops.foldl (fun s o => s.withdrawOp task o) s1
          (if keep then s2 else s2.freeCommitted task t1).push (.park task)

/-! ### Parking (R339 to R343, R367) -/

/-- The task is re-issued once after F_SHORT (R367): the budget that it carries. -/
def Task.reissueBudget (t : Task) : Option Nat :=
  let fig := t.shortf.toNat
  if t.tcb.shortp && !t.reissue && t.shortf != 0xFFFFFFFF && decide (t.budget + fig ≤ 2 ^ 32 - 1) then some (t.budget + fig) else none

/-- A task returns to its tower's ready queue with its original ready tick (R344, R345, R367). -/
def State.requeue (s : State) (t : Task) (r : Ready) : State :=
  s.withTower t.tower fun k => { k with ready := k.ready ++ [{ r with seq := k.nextSeq }], nextSeq := k.nextSeq + 1 }

/-- What RESUMEV gives the next run (R367, R372): this run's RESUME and TACKS, or, where it made nothing durable, what it carried
itself. -/
def Task.carried (t : Task) : Word × Word := if t.tacks = 0 then (t.resumeIn, t.tacksIn) else (t.resume, t.tacks)

/-- A task that pre-emption aborted waits for its placement with the TCB that was read for it, and keeps what a re-issue
carries. -/
def Task.readyAgain (t : Task) : Ready :=
  ⟨t.tcbVa, t.tcb.asid, t.readyTick, 0, some t.tcb, if t.reissue then some t.budget else none, t.carried.1, t.carried.2, none⟩

/-- The task's fault record is still on its way to the fault queue. -/
def State.recordPending (s : State) (t : Task) : Bool :=
  s.agenda.any fun x => match x with
    | .event (.faultQueueAppend k r) => k == t.tower && r.hoop == BitVec.ofNat 6 t.hoop && r.qmask == BitVec.ofNat 4 t.qmask && r.qmask != 0
    | _ => false

/-- The reports of a task whose abort is complete, and its fault record: pre-emption writes none. -/
def State.closeTask (s : State) (id : Nat) (t : Task) (c : Cause) : State :=
  match s.takeBankFlags t with
  | (_, s1) =>
    let s2 := (s1.settle id true (t.frozen = .byViolation)).reportTask id c.code
    if c.code = F_PREEMPT then (s2.requeue t t.readyAgain).freeTask id
    else
      let r := s2.faultRecord c t.hoop t.qmask t.tcb.asid t.tcbVa
      ((s2.freshen.push (.faultQueueAppend t.tower r)).withTask id fun t => { t with phase := .recording }).push (.park id)

/-- What becomes of a task whose fault record is in the queue: it is kept for inspection, re-issued, or gone. -/
def State.leaveHoop (s : State) (id : Nat) (t : Task) (c : Cause) : State :=
  if t.frozen = .byViolation then s.withTask id fun t => { t with phase := .kept }
  else match (if c.code = F_SHORT then t.reissueBudget else none) with
    | some b =>
      ((s.requeue t ⟨t.tcbVa, t.tcb.asid, t.readyTick, 0, none, some b, t.carried.1, t.carried.2, none⟩).freeTask id).push
        (.readinessCheck ⟨t.tower, t.tcbVa, t.tcb.asid⟩)
    | none => s.freeTask id

/-- PARK (R341): it waits for the operations that have left, then for the acknowledgements of its abort tokens, and then
for room in the fault queue. -/
def execPark (task : Nat) (s : State) : Result :=
  .next <|
    match s.task? task with
    | none => s
    | some t =>
      match t.cause with
      | none => s
      | some c =>
        match t.phase with
        | .aborting =>
          if !t.ops.isEmpty || t.tacking.isSome then s.block
          else ((s.sendTokens t false).withTask task fun t => { t with phase := .parking }).push (.park task)
        | .parking => if t.receivers.any (·.owed) then s.block else s.closeTask task t c
        | .recording => if s.recordPending t then s.block else s.leaveHoop task t c
        | _ => s

/-- The 64 bytes of a fault record (R483). -/
def recordBytes (r : FaultRecord) : List Byte :=
  bytesOfNat (((0 : BitVec 12) ++ r.qmask ++ (0 : BitVec 2) ++ r.hoop ++ r.cause : Word)).toNat 4 ++ bytesOfNat r.asid.toNat 4 ++
    bytesOfNat r.tcb.toNat 8 ++ bytesOfNat r.endtick.toNat 8 ++ bytesOfNat r.d0.toNat 4 ++ bytesOfNat r.d1.toNat 4 ++
    bytesOfNat r.d2.toNat 4 ++ bytesOfNat r.d3.toNat 4 ++ bytesOfNat (((0 : BitVec 16) ++ r.skind ++ r.src : Word)).toNat 4 ++
    bytesOfNat ((r.age ++ r.seq : Word)).toNat 4 ++ bytesOfNat 0 16

/-- A record's words are written one by one: a word found deferred or provisional is dropped and logged (R485). -/
def State.writeRecordWords (s : State) (a : Nat) (bs : List Byte) : State :=
  (List.range (bs.length / 4)).foldl (fun s k =>
    if s.wordRefusesWrite (a + 4 * k) then s.logEvent 0x01 0x3F 0xFFFFFFFF (a + 4 * k)
    else s.writeRecord (a + 4 * k) ((bs.drop (4 * k)).take 4)) s

/-- The 64 bytes of a record are a whole line, whose code is good where all of it is written (R431). -/
def State.writeFaultRecord (s : State) (a : Nat) (bs : List Byte) : State :=
  let s1 := s.writeRecordWords a bs
  if (List.range 16).any fun k => s.wordRefusesWrite (a + 4 * k) then (if s.lineGood a 0 then s1 else s1.checkMerge a 0 4) else s1.markLine a 0

/-- FAULT_QUEUE_APPEND (R342): a full ring is waited for, and each wait counted once. -/
def execFaultQueueAppend (tower : Nat) (r : FaultRecord) (s : State) : Result :=
  .next <|
    let q := (s.tower tower).fq
    if q.full then
      (if r.waited then s.block
       else (s.withTower tower fun t => { t with fq := t.fq.countLost }).become (.faultQueueAppend tower { r with waited := true }))
    else
      let a := q.base.toNat + 64 * (q.tail.toNat % q.size)
      (s.writeFaultRecord a (recordBytes r)).withTower tower fun t => { t with fq := { t.fq with tail := t.fq.tail + 1 } }

/-- A kept task is discarded: its stores are at the floor, and all that it held is free (R336, R343, R360). -/
def State.release (s : State) (id : Nat) : State :=
  match s.task? id with
  | none => s
  | some t => (t.domains.foldl (fun s d => s.withDomain t.hoop d Domain.idled) s).freeTask id

end Sys2Proof.Machine
end

