-- ==== Sys2Proof/Machine/Preempt.lean ====
section
/-!
DEFINITION. Pre-emption (R344 to R349, R381): the freeze, the save of a task, and its restore on other quadrants.
-/

namespace Sys2Proof.Machine

/-! ### The freeze (R344, R346, R349) -/

/-- PREEMPT_FREEZE (R344, R346, R349): a task that has reached commit step 3, or has a cause already, goes on as it was. A
SAVE becomes an ABORT where R346 says so. -/
def execPreemptFreeze (task : Nat) (save : Bool) (s : State) : Result :=
  .next <|
    match s.task? task with
    | none => s
    | some t =>
      if t.phase.committed || t.phase.leaving || t.phase == .halting then s
      else
        let s1 := s.holdDomains t
        if save && !s.saveAborts t then (s1.withTask task fun t => { t with phase := .halting, frozen := .none }).push (.preemptSave task)
        else (s1.withTask task fun t => { t with frozen := .none }).raise task (.plain F_PREEMPT 0 0 0 0)

/-! ### Quiescing (R345 step 1) -/

/-- A word of a halted task's operation is at rest: it has not left, or it waits for what a restore asks for again. -/
def atRest (i : Instr) (w : OpWord) : Bool :=
  match w.stage with
  | .done | .waiting | .held | .ready => true
  | .reading => (i matches .iread _) && !w.dropped
  | .queued => match i with
    | .iread _ | .qput _ | .qget _ | .leave _ | .nextw _ | .sbar _ | .sopenRead _ _ | .sopenWrite _ _ | .sindRead _ _ | .sindWrite _ _ => true
    | _ => false
  | .walking | .sent => false

def Task.quiet? (t : Task) : Bool := t.tacking.isNone && t.ops.all fun o => o.words.all (atRest o.instr)

/-- The task that a piece of work belongs to, for work that a save keeps. -/
def workOf : Item → Option Nat
  | .firing g => some g.task
  | .event e => match e with
    | .tokenArrival f | .spillSearch f | .heldTokenAccept f | .headerLatchFreed f | .tokenRoute f | .streamDataArrival f
    | .sparseCoordinate f => some f.task
    | .contextGrant r => some r.task
    | .instanceCommit id _ | .heldExitDelivery id _ | .entryInjection id | .loopiIssue id _ | .streamElementAccess id _ | .taskCommit id => some id
    | .heldFaultRecheck id _ _ | .loadOrderRelease id _ _ | .scoreboardWaitEnd id _ _ | .atOnceRelease id _ _ | .enginePortDepart id _ _
    | .streamEngineAcquire id _ _ | .circuitSetup id _ _ | .queuePutServe id _ _ | .queueGetServe id _ _ | .queueWaitExpire id _ _ => some id
    | _ => none

/-- Work that a restore asks for anew. -/
def asksAnew (id : Nat) : Item → Bool
  | .event (.structRequest t _ _) | .event (.structPoolWaitEnd t _ _) => t == id
  | _ => false

/-- A token of a context that is out of service: it reaches no matching store (R52). -/
def Task.strays (t : Task) (x : Item) : Bool :=
  match x.flight? with
  | some f => (t.context? f.tok.tag.ctx).isNone
  | none => false

/-- The ticks that a bounded wait has left (R345). -/
def State.withdrawWaits (s : State) (id : Nat) : State :=
  let s1 := (s.queueWaits.filter fun q => q.task == id).foldl (fun s q =>
    s.withOpWord id q.op q.j fun w => { w with tick := q.deadline - s.time.toNat }) s
  { s1 with queueWaits := s1.queueWaits.filter fun q => q.task != id }

/-- The reader entries of a task leave their lists (R266, R345). -/
def State.withdrawReaders (s : State) (id : Nat) : State :=
  s.words.foldl (fun s w => s.cancelOn w fun r => r.task == id) s

/-- The save area is written under the task's key, in a layout that the manual does not give (R345). The answer is the fault
of a translation, if it meets one. -/
def State.writeSaveArea (s : State) (t : Task) : Except (BitVec 8) State :=
  let n := (0x100000 + t.tcb.qcnt * 0x440000) / 256
  let f := s.fresh
  (List.range n).foldl (fun r k => match r with
    | .error e => .error e
    | .ok s1 => if k = 0 || Config.savesChunk f k then s1.writeHidden t.tcb.asid t.tcb.key (t.tcb.save + 256 * k) else .ok s1) (.ok s)

/-- A quiet task leaves its hoop as saved (R345): what is under way goes with it, its contexts retire with their episodes
still bound (R441), and it returns to the ready queue with the TCB that was read for it. -/
def State.saveTask (s : State) (id : Nat) (t : Task) : State :=
  let s1 := (s.withdrawWaits id).withdrawReaders id
  let s2 := s1.unmarkStaged t fun _ => false
  match s2.takeBankFlags t with
  | (fl, s3) =>
    match (s3.withTask id fun t => { t with flags := t.flags ||| fl }).writeSaveArea t with
    | .error code => s.raiseUnstated id .unit code
    | .ok s4 =>
      let mine := s4.agenda.filter fun x => workOf x == some id
      let rest := s4.agenda.filter fun x => workOf x != some id && !asksAnew id x
      let ctxs := t.contexts.map (·.ctx)
      let s5 := ({ s4 with agenda := rest, circuits := s4.circuits.filter fun c => c.task != id }.withHoop t.hoop fun h => { h with
        retired := h.retired ++ ctxs.map fun c => (c, id)
        stray := h.stray + BitVec.ofNat 64 (mine.filter t.strays).length
        ranges := h.ranges.filter fun r => r.task != id })
      let s6 := (s5.settle id false false).reportTask id F_PREEMPT
      let kept : Saved := ⟨t.quads, t.domains.map fun d => (s.domain t.hoop d).cur, t.contexts, t.barriers, mine.filter fun x => !t.strays x⟩
      let s7 := s6.withTask id fun t => { t with
        phase := .saved, contexts := [], reserve := 0, slots := 0, barriers := [], saved := some kept
        squashes := t.squashes.map fun r => { r with old := false } }
      let again : Ready := ⟨t.tcbVa, t.tcb.asid, t.readyTick, 0, some t.tcb, none, 0, 0, some id⟩
      let s8 := (s7.requeue t again).push (.schedulerScan t.tower)
      if (s8.hoop t.hoop).sweep.isNone then s8.push (.sweepStart t.hoop) else s8

/-- PREEMPT_SAVE (R345): the task waits until it is quiet. A lock that it was granted meanwhile cannot be saved: it aborts
as R346 has it. -/
def execPreemptSave (task : Nat) (s : State) : Result :=
  .next <|
    match s.task? task with
    | none => s
    | some t =>
      if t.phase != .halting then s
      else if !t.quiet? || s.works.any (fun w => w.task == task) then s.block
      else if s.locks.any fun l => l.task == task then s.raise task (.plain F_PREEMPT 0 0 0 0)
      else s.saveTask task t

/-! ### Moving a task to other quadrants and contexts (R347) -/

/-- Where things of a saved task go: quadrants and contexts, old and new. -/
structure Move where
  quads : List (Nat × Nat)
  ctxs : List (BitVec 12 × BitVec 12)
  deriving DecidableEq, Repr

def Move.quad (m : Move) (q : Nat) : Nat := ((m.quads.find? fun x => x.1 == q).map (·.2)).getD q
def Move.ctx (m : Move) (c : BitVec 12) : BitVec 12 := ((m.ctxs.find? fun x => x.1 == c).map (·.2)).getD c

/-- A tile of a quadrant's border goes to the same place of the new quadrant's (R103). -/
def Move.tile (m : Move) (n : Nat) : Nat :=
  let q := tileQuad n
  tileNumber (m.quad q) (((List.range 16).find? fun k => tileNumber q k == n).getD 0)

/-- An element goes to the same place of the new quadrant (R99). -/
def Move.site (m : Move) : Site → Site
  | .elem x y =>
    let q := m.quad (x / 32 + 2 * (y / 32))
    .elem (32 * (q % 2) + x % 32) (32 * (q / 2) + y % 32)
  | .tile n => .tile (m.tile n)
  | u => u

def Move.tag (m : Move) (t : Tag) : Tag := { t with ctx := m.ctx t.ctx }
def Move.token (m : Move) (k : Token) : Token := { k with tag := m.tag k.tag }
def Move.inst (m : Move) (k : InstKey) : InstKey := { k with ctx := m.ctx k.ctx }
def Move.emitter (m : Move) (e : Emitter) : Emitter := { e with key := m.inst e.key }
def Move.flight (m : Move) (f : Flight) : Flight :=
  { f with src := m.site f.src, dst := m.site f.dst, tok := m.token f.tok, emitter := f.emitter.map m.emitter }
def Move.route (m : Move) (r : CallRoute) : CallRoute := { r with tag := m.tag r.tag }
def Move.firing (m : Move) (g : Firing) : Firing :=
  { g with
    site := m.site g.site, tag := m.tag g.tag, src := m.site g.src
    a := g.a.map m.token, b := g.b.map m.token, c := g.c.map m.token, p := g.p.map m.token }

def Move.request (m : Move) (r : CtxRequest) : CtxRequest :=
  { r with parent := m.tag r.parent, route := r.route.map m.route, sends := r.sends.map m.flight }

/-- A piece of work that was under way. -/
def Move.item (m : Move) : Item → Item
  | .firing g => .firing (m.firing g)
  | .event e => .event (match e with
    | .tokenArrival f => .tokenArrival (m.flight f)
    | .spillSearch f => .spillSearch (m.flight f)
    | .heldTokenAccept f => .heldTokenAccept (m.flight f)
    | .headerLatchFreed f => .headerLatchFreed (m.flight f)
    | .tokenRoute f => .tokenRoute (m.flight f)
    | .streamDataArrival f => .streamDataArrival (m.flight f)
    | .sparseCoordinate f => .sparseCoordinate (m.flight f)
    | .contextGrant r => .contextGrant (m.request r)
    | .instanceCommit id k => .instanceCommit id (m.inst k)
    | .heldExitDelivery id d => .heldExitDelivery id { d with tag := m.tag d.tag }
    | e => e)

def Move.context (m : Move) (c : Context) : Context :=
  { c with ctx := m.ctx c.ctx, parent := c.parent.map m.tag, route := c.route.map m.route }

def Move.held (m : Move) : HeldExit → HeldExit
  | .exit e w tag => .exit e w (m.tag tag)
  | .ret w => .ret w

def Move.stageOwner (m : Move) : StageOwner → StageOwner
  | .inst k => .inst (m.inst k)
  | o => o

def Move.slot (m : Move) (p : SpillSlot) : SpillSlot := { p with site := m.site p.site }

/-- The presence bits of a spilled token, under the tag that it has now. -/
def Task.slotBits (t : Task) (p : SpillSlot) : List (BitVec 8) :=
  let mine := fun (x : Option SpillSlot) => x.any fun q => q.slot == p.slot
  (((t.waiting.filter fun w => mine w.slot).flatMap fun w => presenceBits w.tok.tag w.tok.span) ++
    ((t.accums.filter fun a => mine a.slot).flatMap fun a => presenceBits { a.tag with iter := a.iter } 1)).eraseDups

/-- The presence filters and their spill counts are formed anew from the spilled tokens, whose contexts have been renumbered
(R47, R347). -/
def Task.refilter (t : Task) : Task :=
  let renew := fun (p : SpillSlot) => { p with bits := t.slotBits p }
  let t1 := { t with
    filters := []
    waiting := t.waiting.map fun (w : Wait) => { w with slot := w.slot.map renew }
    accums := t.accums.map fun (a : Accum) => { a with slot := a.slot.map renew } }
  t1.spills.foldl Task.recordSpill t1

/-- Every record of a task that names a context, an element, a tile or a quadrant is rewritten. -/
def Move.task (m : Move) (t : Task) : Task :=
  let place := fun (p : Placed) => match p.site with
    | .tile n => { p with site := .tile (m.tile n) }
    | _ => p
  Task.refilter { t with
    blocks := t.blocks.map fun b => { b with code := b.code.map place }
    windows := t.windows.map fun w => { w with ctx := m.ctx w.ctx }
    insts := t.insts.map fun i => { i with key := m.inst i.key, held := i.held.map m.held }
    squashes := t.squashes.map fun r => { r with ctx := m.ctx r.ctx }
    waiting := t.waiting.map fun w => { w with site := m.site w.site, tok := m.token w.tok, src := m.site w.src, slot := w.slot.map m.slot }
    latches := t.latches.map fun l => { l with site := m.site l.site, ctx := m.ctx l.ctx }
    accums := t.accums.map fun a => { a with site := m.site a.site, tag := m.tag a.tag, slot := a.slot.map m.slot }
    loops := t.loops.map fun l => { l with firing := m.firing l.firing }
    staged := t.staged.map fun w => { w with quad := m.quad w.quad, owner := m.stageOwner w.owner }
    stagedOps := t.stagedOps.map fun o => { o with quad := m.quad o.quad, inst := m.inst o.inst }
    ops := t.ops.map fun o => { o with firing := m.firing o.firing }
    streams := t.streams.map fun x => { x with tile := m.tile x.tile, firing := m.firing x.firing } }

/-! ### Restore (R347, R381) -/

/-- Fresh contexts for a task, one after another. `none` says that too few are free. -/
def State.freshContexts (s : State) (id : Nat) : List Context → Option (List (BitVec 12 × BitVec 12) × State)
  | [] => some ([], s)
  | c :: cs =>
    match s.task? id with
    | none => none
    | some t =>
      if t.reserve = 0 ∧ s.unreserved t.hoop = 0 then none
      else match s.pickCtx t.hoop with
        | (none, _) => none
        | (some n, s1) =>
          match (s1.withTask id fun t => { t with contexts := t.contexts ++ [{ c with ctx := n }], reserve := t.reserve - 1 }).freshContexts id cs with
          | some (m, s2) => some ((c.ctx, n) :: m, s2)
          | none => none

/-- The circuits of a saved task's streams can be set up again (R245, R248). -/
def State.circuitsFree (s : State) (t : Task) : Bool :=
  let ends := t.openStreams.filterMap fun x => x.remote
  decide ((s.circuits.filter fun c => c.source == t.hoop).length + ends.length ≤ 16) &&
    ends.all fun h => decide ((s.circuits.filter fun c => c.dest == h).length + (ends.filter fun k => k == h).length ≤ 16)

/-- An IWRITE mark is requested again: the word must be empty or deferred, or full with the task's own clear of it committed
(R261, R347). -/
def State.markAgain (s : State) (id : Nat) (o : StagedOp) : State :=
  match s.task? id with
  | none => s
  | some t =>
    let cleared := t.stagedOps.any fun x => x.pa == o.pa && x.order.isSome && x.what == .clear
    let refuse := fun (slot : BitVec 8) (code : BitVec 2) =>
      s.freshen.raise id (.plain F_WONCE (Config.unstatedDetail s.fresh 0) (Config.unstatedDetail s.fresh 1)
        ((0 : BitVec 16) ++ slot ++ (0 : BitVec 6) ++ code) 0)
    match s.wordAt o.pa with
    | none => s.markWord o.pa (.task id) 0
    | some w =>
      match w.code with
      | .deferred => s.markWord o.pa (.task id) 0
      | .full => if cleared then s.markWord o.pa (.task id) 0 else refuse 0xFF 3
      | .provisional => if w.owner = some (.task id) then s else refuse (s.ownerSlot w.owner) 2

/-- One word of an operation of a restored task asks again for what the save withdrew: a reader entry, a queue's service, or
leave (R266, R282, R345, R347). -/
def State.askAgain (s : State) (id : Nat) (t : Task) (o : OpRec) (j : Nat) : State :=
  let w := o.at j
  let r : Reader := ⟨id, o.id, j, t.tower⟩
  let wait := fun (get : Bool) =>
    let q : QueueWait := ⟨w.pa, get, id, o.id, j, s.time.toNat + w.tick⟩
    ({ s with queueWaits := s.queueWaits ++ [q] }).withOpWord id o.id j fun w => { w with tick := 0 }
  match o.instr with
  | .iread _ =>
    if w.stage = .reading ∨ w.stage = .queued then s.sendWord id o.id j w.pa (.structRequest id o.id j) else s
  | .qput _ => if w.stage = .queued then wait false else s
  | .qget _ => if w.stage = .queued then wait true else s
  | .leave f =>
    let ctl := (operand (.leave f) o.firing 0 j).word
    match (if w.stage = .queued then t.domainNamed (leaveDom ctl) else none) with
    | some d => s.askLeave t.hoop d r (leaveAmt ctl)
    | none => s
  | .qsend _ =>
    let d := t.domainOf o.firing.site
    if w.stage = .waiting then s.askLeave t.hoop d r (s.leaveStep t.hoop d 4) else s
  | _ => s

/-- A restored stream has its circuit again, and asks again for the leave that it held or waited for (R248, R381). -/
def State.streamAgain (s : State) (id : Nat) (t : Task) (x : Stream) : State :=
  let s1 := match x.remote with
    | some h =>
      let c : Circuit := ⟨t.hoop, h, id, x.uid⟩
      if x.closed then s else { s with circuits := s.circuits ++ [c] }
    | none => s
  if x.asked || x.leave != 0 then
    let d := tileQuad x.tile
    (s1.withStream id x.uid fun x => { x with asked := true, leave := 0 }).askLeave t.hoop d ⟨id, x.op.1, x.op.2, t.tower⟩
      (s1.leaveStep t.hoop d 4)
  else s1

/-- The saved state is back on the hoop. -/
def State.reload (s : State) (id : Nat) (sv : Saved) (ctxs : List (BitVec 12 × BitVec 12)) : State :=
  match s.task? id with
  | none => s
  | some t0 =>
    let m : Move := ⟨sv.quads.zip t0.quads, ctxs⟩
    let back := fun (t : Task) => { m.task t with
      contexts := t.contexts.map fun c => { m.context c with ctx := c.ctx }
      barriers := sv.barriers, saved := none, phase := if t.ended then .ending else .running }
    let s1 := { s.withTask id back with agenda := s.agenda ++ sv.items.map m.item }
    let bind := fun (e : Episode) => { e with bound := e.bound.map fun b => if b.1 = id then (id, m.ctx b.2) else b }
    let s2 := s1.withJoin t0.tower fun e => { e with episodes := e.episodes.map bind }
    match s2.task? id with
    | none => s2
    | some t =>
      let s3 := (t.stagedOps.filter fun o => match o.what with
        | .write _ _ => true
        | _ => false).foldl (fun s o => s.markAgain id o) s2
      let s4 := t.ops.foldl (fun s o => (List.range o.words.length).foldl (fun s j => s.askAgain id t o j) s) s3
      let s5 := t.streams.foldl (fun s x => s.streamAgain id t x) s4
      let s6 := if t.ended then s5.push (.taskCommit id) else s5
      if s6.sweepDue t.hoop then s6.push (.sweepStart t.hoop) else s6

/-- RESTORE (R347): in place of step 5 of R322, the saved state is reloaded, once contexts and circuits are free for it. -/
def execRestoreTask (task : Nat) (s : State) : Result :=
  .next <|
    match s.task? task with
    | none => s
    | some t =>
      match t.saved with
      | none => s
      | some sv =>
        if t.phase != .starting then s
        else if !s.circuitsFree t then s.block
        else match s.freshContexts task sv.contexts with
          | none => s.block
          | some (m, s1) => s1.reload task sv m

end Sys2Proof.Machine
end

