-- ==== Sys2Proof/Machine/Control.lean ====
section
/-!
DEFINITION. At-once instructions as their instance becomes the base of its window (R257), and those of the system family:
traps, registers, freezes, thaws and pre-emption (R328, R331 to R337, R375).
-/

namespace Sys2Proof.Machine

/-! ### Masters (R334 to R336) -/

/-- A master that a target word names (R334). -/
inductive Master where
  | quad (hoop quad : Nat)
  | engine (tower engine : Nat)
  | node (n : BitVec 14)
  deriving DecidableEq, Repr

/-- The master of a target word, or `none` where the word is invalid. -/
def masterOf (w : Word) : Option Master :=
  match bits w 31 30 with
  | 0 => (quadTarget w).map fun q => .quad q.1 q.2
  | 1 => if bitsZero w 29 10 && bitsZero w 7 3 && decide (bits w 2 0 < 4) then some (.engine (bits w 9 8) (bits w 2 0)) else none
  | 2 => if bitsZero w 29 14 then some (.node (w.extractLsb' 0 14)) else none
  | _ => none

/-- How a node is frozen. -/
def State.nodeFreeze (s : State) (n : BitVec 14) : Freeze := ((s.frozenNodes.find? fun x => x.1 == n).map (·.2)).getD .none

/-- A node is frozen, or is free again. -/
def State.setNode (s : State) (n : BitVec 14) (f : Freeze) : State :=
  let others := s.frozenNodes.filter fun (x : BitVec 14 × Freeze) => x.1 != n
  { s with frozenNodes := if f = .none then others else others ++ [(n, f)] }

def State.setEngine (s : State) (k e : Nat) (f : Freeze) : State :=
  s.withEngine k e fun x => { x with frozen := f }

/-- FREEZE on a master (R335), for task `id`: whether it has an effect, or the master is frozen already. -/
def State.freeze (s : State) (id : Nat) : Master → Bool × State
  | .quad h q =>
    match s.quadHolder (h, q) with
    | none => (false, s)
    | some t =>
      if t.id = id then (false, s)
      else if t.frozen != .none then (true, s)
      else (true, (s.holdDomains t).withTask t.id fun t => { t with frozen := .byFreeze })
  | .engine k e => (true, if (s.engine k e).frozen != .none then s else s.setEngine k e .byFreeze)
  | .node n => (true, if s.nodeFreeze n != .none then s else s.setNode n .byFreeze)

/-- The pumps of a task resume (R360). -/
def State.resumeDomains (s : State) (t : Task) : State :=
  t.domains.foldl (fun s d => s.withDomain t.hoop d fun x =>
    if x.st = .held then { x with st := if t.account = 0 then .drain else .feed } else x) s

/-- THAW of a task's quadrants (R336): RESUME, RELEASE or DUMP. A task frozen by a violation whose abort still goes on is
freed when it has parked. -/
def State.thawTask (s : State) (t : Task) (act : Nat) : Bool × State :=
  match t.frozen, act with
  | .byFreeze, 0 => (true, (s.resumeDomains t).withTask t.id fun t => { t with frozen := .none })
  | .byFreeze, 1 => (true, s.push (.preemptFreeze t.id false))
  | .byViolation, 1 =>
    (true, if t.phase = .kept then s.release t.id else s.withTask t.id fun t => { t with frozen := .none })
  | .byViolation, 2 =>
    if t.tcb.save = 0 then (false, s)
    else match s.writeSaveArea t with
      | .ok s1 => (true, s1)
      | .error _ => (false, s)
  | _, _ => (false, s)

/-- THAW on a master (R336): whether it acts. -/
def State.thaw (s : State) (act : Nat) : Master → Bool × State
  | .quad h q =>
    match s.quadHolder (h, q) with
    | none => (false, s)
    | some t => s.thawTask t act
  | .engine k e =>
    match (s.engine k e).frozen, act with
    | .byFreeze, 0 | .byViolation, 1 => (true, s.setEngine k e .none)
    | _, _ => (false, s)
  | .node n =>
    match s.nodeFreeze n, act with
    | .byFreeze, 0 | .byViolation, 1 => (true, s.setNode n .none)
    | _, _ => (false, s)

/-- PREEMPT (R337): whether a pre-emption begins, and the state. -/
def State.preempt (s : State) (id : Nat) (target : Word) (mode : Nat) : Bool × State :=
  match (quadTarget target).bind s.quadHolder with
  | none => (false, s)
  | some t =>
    if t.id = id || t.phase.committed || t.phase.leaving || t.phase == .halting || decide (2 < mode) then (false, s)
    else (true, s.push (.preemptFreeze t.id (if mode = 0 then t.tcb.pmode else mode == 2)))

/-! ### Registers (R332) -/

/-- A register access that R332 refuses, or `none` where it performs. -/
def registerFault (t : Task) (off : Nat) (write : Bool) : Option (BitVec 8) :=
  if off % 4 != 0 then some F_SEG
  else if t.tcb.priv then none
  else match regOf off with
    | some (r, _) => if write || !r.taskReadable then some F_PROT else none
    | none => some F_PROT

/-! ### Release (R257) -/

/-- The reply of an instruction that the hoop itself performs. -/
def State.answerWord (s : State) (id op j : Nat) (fmt : BitVec 3) (w : Word) : State :=
  (s.withOpWord id op j fun w => { w with stage := .sent }).reply id op j ⟨w, 0, 0, fmt, []⟩

def bit32 (b : Bool) : Word := if b then 1 else 0

/-- An at-once instruction of the system family performs. -/
def State.systemWord (s : State) (id : Nat) (t : Task) (o : OpRec) (j : Nat) : State :=
  let g := o.firing
  let a := (operand o.instr g 0 j).word
  let b := operand o.instr g 1 j
  let say := fun (r : Bool × State) => r.2.answerWord id o.id j 0 (bit32 r.1)
  match o.instr with
  | .grant _ => match s.grant a b.word with
    | (w, s1) => s1.answerWord id o.id j 0 w
  | .tack _ => s.beginTack id t o j
  | .trap _ => s.raise id (.at F_TRAP g.src a ((0 : BitVec 11) ++ g.tag.blk ++ g.tag.inst ++ (0 : BitVec 7)) 0 0)
  | .srd _ =>
    match registerFault t a.toNat false with
    | some code => s.raiseUnstated id g.src code
    | none => match s.readRegWord a.toNat with
      | (w, s1) => s1.answerWord id o.id j 0 w
  | .swr _ =>
    match registerFault t a.toNat true with
    | some code => s.raiseUnstated id g.src code
    | none => match s.writeRegWord ⟨a.toNat, false, b.word.zeroExtend 64, false⟩ with
      | some s1 => s1.answerWord id o.id j b.fmt b.word
      | none => s.block
  | .freeze _ => match masterOf a with
    | some m => say (s.freeze id m)
    | none => say (false, s)
  | .thaw _ => match masterOf a with
    | some m => say (s.thaw b.word.toNat m)
    | none => say (false, s)
  | .preempt _ => say (s.preempt id a b.word.toNat)
  | _ => s

/-- An at-once operation whose request goes to a bank. -/
def leavesForBank : Instr → Bool
  | .grant _ | .tack _ | .trap _ | .srd _ | .swr _ | .freeze _ | .thaw _ | .preempt _ => false
  | _ => true

/-- AT_ONCE_RELEASE (R257): the request leaves once its instance is the base of its window. -/
def execAtOnceRelease (task op j : Nat) (s : State) : Result :=
  .next (s.onWord task op j .ready fun t o =>
    let busy := match o.instr with
      | .atomsc _ _ => t.serialBusy o.firing.site
      | _ => false
    if t.halted || !t.isBase (o.firing.instAt j) || busy || (o.words.take j).any (fun w => w.stage == .ready) then s.block
    else if !leavesForBank o.instr then s.systemWord task t o j
    else match s.debitOnce t o j with
      | .error s1 => s1
      | .ok s1 =>
        s1.sendWord task op j (o.at j).pa (match o.instr with
          | .unlock _ => .lockRelease task op j
          | _ => .bankOperation task op j))

/-! ### The instructions (R331, R332, R335 to R337) -/

/-- TRAP (R331). -/
def execTrap (f : XForm) (s : State) : Result := withFiring s fun g s => sysFiring (.trap f) (State.startAtOnce g.task) g s
/-- SRD and SWR (R332). -/
def execSrd (f : XForm) (s : State) : Result := withFiring s fun g s => sysFiring (.srd f) (State.startAtOnce g.task) g s
def execSwr (f : XForm) (s : State) : Result := withFiring s fun g s => sysFiring (.swr f) (State.startAtOnce g.task) g s
/-- FREEZE (R335). -/
def execFreeze (f : XForm) (s : State) : Result := withFiring s fun g s => sysFiring (.freeze f) (State.startAtOnce g.task) g s
/-- THAW (R336). -/
def execThaw (f : XForm) (s : State) : Result := withFiring s fun g s => sysFiring (.thaw f) (State.startAtOnce g.task) g s
/-- PREEMPT (R337). -/
def execPreempt (f : XForm) (s : State) : Result := withFiring s fun g s => sysFiring (.preempt f) (State.startAtOnce g.task) g s

end Sys2Proof.Machine
end

