-- ==== Sys2Proof/Machine/Fp.lean ====
section
/-!
DEFINITION. The FP32 instructions (R151 to R158).
-/

namespace Sys2Proof.Machine

def execFadd (f : StdForm) (s : State) : Result := floatOp (.fadd f) (fun a b _ => fadd a b) s
def execFsub (f : StdForm) (s : State) : Result := floatOp (.fsub f) (fun a b _ => fsub a b) s
def execFmul (f : StdForm) (s : State) : Result := floatOp (.fmul f) (fun a b _ => fmul a b) s
def execFfma (f : StdForm) (s : State) : Result := floatOp (.ffma f) ffma s
def execFfms (f : StdForm) (s : State) : Result := floatOp (.ffms f) ffms s
def execFmin (f : StdForm) (s : State) : Result := floatOp (.fmin f) (fun a b _ => fmin a b) s
def execFmax (f : StdForm) (s : State) : Result := floatOp (.fmax f) (fun a b _ => fmax a b) s
def execFabs (f : StdForm) (s : State) : Result := floatOp (.fabs f) (fun a _ _ => fabs a) s
def execFneg (f : StdForm) (s : State) : Result := floatOp (.fneg f) (fun a _ _ => fneg a) s
def execFrnd (f : StdForm) (s : State) : Result := floatOp (.frnd f) (fun a b _ => frnd a b) s
def execFdiv (f : StdForm) (s : State) : Result := floatOp (.fdiv f) (fun a b _ => fdiv a b) s
def execFsqrt (f : StdForm) (s : State) : Result := floatOp (.fsqrt f) (fun a _ _ => fsqrt a) s
def execFrcp (f : StdForm) (s : State) : Result := floatOp (.frcp f) (fun a _ _ => frcp a) s
def execFrsq (f : StdForm) (s : State) : Result := floatOp (.frsq f) (fun a _ _ => frsq a) s
def execFexp2 (f : StdForm) (s : State) : Result := floatOp (.fexp2 f) (fun a _ _ => fexp2 a) s
def execFlog2 (f : StdForm) (s : State) : Result := floatOp (.flog2 f) (fun a _ _ => flog2 a) s
def execFeq (f : StdForm) (s : State) : Result := floatTest (.feq f) (fun a b _ => feq a b) s
def execFlt (f : StdForm) (s : State) : Result := floatTest (.flt f) (fun a b _ => flt a b) s
def execFle (f : StdForm) (s : State) : Result := floatTest (.fle f) (fun a b _ => fle a b) s
def execFuno (f : StdForm) (s : State) : Result := floatTest (.funo f) (fun a b _ => funo a b) s
def execFclass (f : StdForm) (s : State) : Result := floatTest (.fclass f) (fun a _ _ => (fclass a, 0)) s

end Sys2Proof.Machine
end

