-- ==== Sys2Proof/Machine/Mem.lean ====
section
/-!
DEFINITION. The S-form instructions whose sets issue word by word on a selvage tile: loads and stores
(R236, R237), structure memory (R260 to R262), bank operations (R267, R271), locks (R272, R274) and QGET
(R280).
-/

namespace Sys2Proof.Machine

def execLd (f : SForm) (width : Width) (sx : Bool) (s : State) : Result := withFiring s (selvageFiring (.ld f width sx))
def execSt (f : SForm) (width : Width) (s : State) : Result := withFiring s (selvageFiring (.st f width))
def execLdv (f : SForm) (fmt : BitVec 3) (s : State) : Result := withFiring s (selvageFiring (.ldv f fmt))
def execStv (f : SForm) (fmt : BitVec 3) (s : State) : Result := withFiring s (selvageFiring (.stv f fmt))
def execIread (f : SForm) (s : State) : Result := withFiring s (selvageFiring (.iread f))
def execIwrite (f : SForm) (s : State) : Result := withFiring s (selvageFiring (.iwrite f))
def execIclear (f : SForm) (s : State) : Result := withFiring s (selvageFiring (.iclear f))
def execAadd (f : SForm) (s : State) : Result := withFiring s (selvageFiring (.aadd f))
def execAfadd (f : SForm) (s : State) : Result := withFiring s (selvageFiring (.afadd f))
def execAmin (f : SForm) (s : State) : Result := withFiring s (selvageFiring (.amin f))
def execAmax (f : SForm) (s : State) : Result := withFiring s (selvageFiring (.amax f))
def execAminu (f : SForm) (s : State) : Result := withFiring s (selvageFiring (.aminu f))
def execAmaxu (f : SForm) (s : State) : Result := withFiring s (selvageFiring (.amaxu f))
def execAand (f : SForm) (s : State) : Result := withFiring s (selvageFiring (.aand f))
def execAor (f : SForm) (s : State) : Result := withFiring s (selvageFiring (.aor f))
def execAxor (f : SForm) (s : State) : Result := withFiring s (selvageFiring (.axor f))
def execAswap (f : SForm) (s : State) : Result := withFiring s (selvageFiring (.aswap f))
def execAfmin (f : SForm) (s : State) : Result := withFiring s (selvageFiring (.afmin f))
def execAfmax (f : SForm) (s : State) : Result := withFiring s (selvageFiring (.afmax f))
def execLock (f : SForm) (s : State) : Result := withFiring s (selvageFiring (.lock f))
def execUnlock (f : SForm) (s : State) : Result := withFiring s (selvageFiring (.unlock f))
def execQget (f : SForm) (s : State) : Result := withFiring s (selvageFiring (.qget f))

/-- A set whose C and B tokens differ in format takes F_FMT before any of its words fires (R267). A literal undergoes no
format check (R85). -/
def casFiring (i : Instr) (g : Firing) (s : State) : State :=
  match g.b, g.c with
  | some b, some c =>
    if b.tag.fmt ≠ 7 ∧ c.tag.fmt ≠ 7 ∧ b.tag.fmt ≠ c.tag.fmt then s.raiseFmt g.task g.src b 0x04 (b.words.headD 0)
    else selvageFiring i g s
  | _, _ => selvageFiring i g s

def execAcas (f : SForm) (s : State) : Result := withFiring s (casFiring (.acas f))
def execAtomsc (f : SForm) (op : BankOp) (s : State) : Result :=
  withFiring s (if op = .acas then casFiring (.atomsc f op) else selvageFiring (.atomsc f op))

end Sys2Proof.Machine
end

