-- ==== Sys2Proof/Machine/Crypto.lean ====
section
/-!
DEFINITION. The cryptography of R473 and R474: SHA-256 (FIPS 180-4), MGF1 and RSASSA-PSS of PKCS #1 v2.2 with RSA-3072
and a salt of 32 bytes. The manual names these standards and does not repeat them.
-/

namespace Sys2Proof.Machine

/-! ### SHA-256 -/

def shaRoundConstants : List Word :=
  [0x428A2F98, 0x71374491, 0xB5C0FBCF, 0xE9B5DBA5, 0x3956C25B, 0x59F111F1, 0x923F82A4, 0xAB1C5ED5,
   0xD807AA98, 0x12835B01, 0x243185BE, 0x550C7DC3, 0x72BE5D74, 0x80DEB1FE, 0x9BDC06A7, 0xC19BF174] ++
  [0xE49B69C1, 0xEFBE4786, 0x0FC19DC6, 0x240CA1CC, 0x2DE92C6F, 0x4A7484AA, 0x5CB0A9DC, 0x76F988DA,
   0x983E5152, 0xA831C66D, 0xB00327C8, 0xBF597FC7, 0xC6E00BF3, 0xD5A79147, 0x06CA6351, 0x14292967] ++
  [0x27B70A85, 0x2E1B2138, 0x4D2C6DFC, 0x53380D13, 0x650A7354, 0x766A0ABB, 0x81C2C92E, 0x92722C85,
   0xA2BFE8A1, 0xA81A664B, 0xC24B8B70, 0xC76C51A3, 0xD192E819, 0xD6990624, 0xF40E3585, 0x106AA070] ++
  [0x19A4C116, 0x1E376C08, 0x2748774C, 0x34B0BCB5, 0x391C0CB3, 0x4ED8AA4A, 0x5B9CCA4F, 0x682E6FF3,
   0x748F82EE, 0x78A5636F, 0x84C87814, 0x8CC70208, 0x90BEFFFA, 0xA4506CEB, 0xBEF9A3F7, 0xC67178F2]

def shaInitial : List Word :=
  [0x6A09E667, 0xBB67AE85, 0x3C6EF372, 0xA54FF53A, 0x510E527F, 0x9B05688C, 0x1F83D9AB, 0x5BE0CD19]

def bigSigma0 (x : Word) : Word := x.rotateRight 2 ^^^ x.rotateRight 13 ^^^ x.rotateRight 22
def bigSigma1 (x : Word) : Word := x.rotateRight 6 ^^^ x.rotateRight 11 ^^^ x.rotateRight 25
def smallSigma0 (x : Word) : Word := x.rotateRight 7 ^^^ x.rotateRight 18 ^^^ (x >>> 3)
def smallSigma1 (x : Word) : Word := x.rotateRight 17 ^^^ x.rotateRight 19 ^^^ (x >>> 10)

/-- The message schedule: `n` more words, the latest first. -/
def shaExtend (ws : List Word) : Nat → List Word
  | 0 => ws
  | n + 1 => shaExtend ((smallSigma1 (ws.getD 1 0) + ws.getD 6 0 + smallSigma0 (ws.getD 14 0) + ws.getD 15 0) :: ws) n

/-- One round on the eight working words. -/
def shaRound (v : List Word) (kw : Word) : List Word :=
  match v with
  | [a, b, c, d, e, f, g, h] =>
    let t1 := h + bigSigma1 e + ((e &&& f) ^^^ (~~~e &&& g)) + kw
    let t2 := bigSigma0 a + ((a &&& b) ^^^ (a &&& c) ^^^ (b &&& c))
    [t1 + t2, a, b, c, d + t1, e, f, g]
  | _ => v

/-- One block of sixteen words. -/
def shaBlock (h block : List Word) : List Word :=
  let ws := (shaExtend block.reverse 48).reverse
  let v := (List.zipWith (· + ·) shaRoundConstants ws).foldl shaRound h
  List.zipWith (· + ·) h v

/-- The bytes of a number, most significant first. -/
def bigEndian (v : Nat) : Nat → List Byte
  | 0 => []
  | n + 1 => bigEndian (v / 256) n ++ [BitVec.ofNat 8 v]

/-- The number that bytes form, most significant first. -/
def natOfBigEndian (bs : List Byte) : Nat := bs.foldl (fun n b => 256 * n + b.toNat) 0

/-- The bytes of a message with its padding. -/
def shaPad (m : List Byte) : List Byte :=
  m ++ [0x80] ++ List.replicate ((119 - m.length % 64) % 64) 0 ++ bigEndian (8 * m.length) 8

/-- Big-endian words. -/
def shaWords : List Byte → List Word
  | a :: b :: c :: d :: bs => (a ++ b ++ c ++ d) :: shaWords bs
  | _ => []

/-- The blocks of a padded message in order. -/
def shaBlocks (h ws : List Word) : Nat → List Word
  | 0 => h
  | n + 1 => shaBlocks (shaBlock h (ws.take 16)) (ws.drop 16) n

/-- The digest of a message, as bytes. -/
def sha256 (m : List Byte) : List Byte :=
  let ws := shaWords (shaPad m)
  (shaBlocks shaInitial ws (ws.length / 16)).flatMap fun w => bigEndian w.toNat 4

/-! ### RSASSA-PSS -/

/-- The first `n` bytes of MGF1 with SHA-256. -/
def mgf1 (seed : List Byte) (n : Nat) : List Byte :=
  ((List.range ((n + 31) / 32)).flatMap fun k => sha256 (seed ++ bigEndian k 4)).take n

/-- `b ^ e` modulo `n`, by the low `k` bits of the exponent. -/
def powMod (b e n : Nat) : Nat → Nat
  | 0 => 1 % n
  | k + 1 => (if e % 2 = 1 then b * powMod (b * b % n) (e / 2) n k else powMod (b * b % n) (e / 2) n k) % n

def xorBytes (a b : List Byte) : List Byte := List.zipWith (· ^^^ ·) a b

/-- Clear the top bit of the first byte: the encoded message has 3,071 bits. -/
def clearTop : List Byte → List Byte
  | [] => []
  | b :: bs => (b &&& 0x7F) :: bs

/-- The hash that the encoding of a message's digest carries under a salt. -/
def pssHash (digest salt : List Byte) : List Byte := sha256 (List.replicate 8 0 ++ digest ++ salt)

/-- The encoded message of a digest under a salt. -/
def pssEncode (digest salt : List Byte) : List Byte :=
  let h := pssHash digest salt
  clearTop (xorBytes (List.replicate 318 0 ++ [1] ++ salt) (mgf1 h 351)) ++ h ++ [0xBC]

/-- The encoded message is that of the digest, under the salt it carries. -/
def pssVerify (digest em : List Byte) : Bool :=
  let h := (em.drop 351).take 32
  let db := clearTop (xorBytes (em.take 351) (mgf1 h 351))
  em.length == 384 && em.getLastD 0 == 0xBC && (em.headD 0 &&& 0x80) == 0 &&
    db.take 319 == List.replicate 318 0 ++ [1] && pssHash digest (db.drop 319) == h

/-- An RSA-3072 signature with public exponent 65,537 over a digest (R473). -/
def rsaVerify (modulus signature : Nat) (digest : List Byte) : Bool :=
  decide (2 ^ 3071 ≤ modulus ∧ modulus < 2 ^ 3072 ∧ signature < modulus) &&
    pssVerify digest (bigEndian (powMod signature 65537 modulus 17) 384)

/-- The signature over a digest by a private key (R474). -/
def rsaSign (modulus exponent : Nat) (digest salt : List Byte) : List Byte :=
  bigEndian (powMod (natOfBigEndian (pssEncode digest salt)) exponent modulus 3072) 384

end Sys2Proof.Machine
end

