-- ==== Sys2Proof/Machine/System.lean ====
section
/-!
DEFINITION. The package as a whole (R217, R469 to R485): the quiescence count, reset and bring-up, firmware and attestation,
keys, the accesses of system agents, the scrub of configuration stores and the training of links.
-/

namespace Sys2Proof.Machine

/-! ### The quiescence count (R217, R265, R392, R417, R424) -/

/-- A provisional word belongs to another task than `id`. -/
def State.foreignWord (s : State) (id : Nat) (w : WordState) : Bool :=
  w.code == .provisional && (match w.owner with
    | some (.task n) => n != id
    | some (.remote x) => x != ⟨s.node, id⟩
    | some (.coll ms) => !ms.contains ⟨s.node, id⟩
    | none => false)

/-- A LOCK waits at its tile for room in its bank's queue (R272, R276). -/
def State.lockWaitsAtTile (s : State) (id op j : Nat) : Bool := s.agenda.contains (.event (.lockTileWaitEnd id op j))

/-- A word of an operation is outstanding for the quiescence count, rather than waiting. -/
def State.outstanding (s : State) (t : Task) (o : OpRec) (j : Nat) : Bool :=
  let w := o.at j
  if o.instr.spec.place = .matrix then
    w.stage == .queued || w.stage == .sent
  else match w.stage with
    | .walking => true
    | .sent => match o.instr with
      | .tack _ => match t.tacking with
        | some k => k.waits.isEmpty
        | none => true
      | .lock _ => !s.lockWaitsAtTile t.id o.id j
      | _ => true
    | .ready => isCommand o.instr || (scoreboarded o.instr && s.rangeHolds w.pa (accessOf o.instr o.firing j).size)
    | .reading => match s.wordAt w.pa with
      | some x => s.foreignWord t.id x
      | none => false
    | .queued => match o.instr with
      | .atomsc _ _ => true
      | .lwclose _ => match s.window? (operand o.instr o.firing 0 j).word.toNat with
        | some win => (s.windowProvisional win).any (s.foreignWord t.id)
        | none => false
      | i => (engineOf i).isSome && w.pending == 0
    | .waiting | .held | .done => false

/-- A context request of the task, its entry unit's among them, or an exit delivery waits for a sweep. -/
def State.awaitsSweep (s : State) (t : Task) : Bool :=
  s.agenda.any fun x => match x with
    | .event (.contextGrant r) => r.task == t.id && ((s.hoop t.hoop).sweep.isSome || !(s.hoop t.hoop).retired.isEmpty) &&
        s.grantFor t (t.onChain r) == .wait
    | .event (.heldExitDelivery id d) => id == t.id && t.deliveryWaits d
    | _ => false

/-- The count of the task does not advance. -/
def State.quietHeld (s : State) (t : Task) : Bool :=
  !(t.phase == .running || t.phase == .ending) || t.frozen != .none ||
    (t.ops.any fun o => (List.range o.words.length).any fun j => s.outstanding t o j) ||
    (t.openStreams.any fun x => s.streamHeld t x) ||
    (s.queueWaits.any fun w => w.task == t.id) ||
    ((s.hoop t.hoop).domains.any fun d => d.leaves.any fun r => r.1.task == t.id && s.leaveWanted r.1) ||
    s.awaitsSweep t

/-- The counts of the package advance by a tick, and those that reach their window end their tasks. -/
def State.countQuiet (s : State) : State :=
  let s1 := { s with tasks := s.tasks.map fun t => if s.quietHeld t then t else { t with quiet := t.quiet + 1 } }
  (s.tasks.map (·.id)).foldl State.quiesce s1

/-! ### Reset and bring-up (R472) -/

/-- What comes to the part from outside it, which no reset of the part takes back. -/
def isInput : Instr → Bool
  | .hostToken _ _ _ | .flitReceive _ _ | .flitRetry _ | .linkDown _ | .linkRetrain _ | .linkTrained _ _ => true
  | .pumpRailLow | .pumpRailRestore | .dramTrain | .resetPackage _ | .firmwareLoad _ | .attestationRequest _ | .keyInstall _ _ => true
  | .pkPoolWrite _ | .qmTargetWrite _ | .qmCtlWrite _ | .hcQuietWrite _ | .pkTlbinvWrite _ | .pkCtlRun _ | .pkNodeWrite _ => true
  | .jtCtlWrite _ | .registerWrite _ | .systemAgentWrite _ _ _ | .systemAgentRead _ _ _ | .configScrub _ _ _ => true
  | _ => false

/-- The package is reset: every task is lost and each register takes its reset value, but for PK_RSTCAUSE. Memory keeps
its bytes until the DRAM is trained. -/
def State.resetFor (s : State) (cause : BitVec 3) : State :=
  { State.reset with
    agenda := s.agenda.filter fun x => match x with
      | .event e => isInput e
      | .firing _ => false
    choices := s.choices
    fresh := s.fresh
    mem := s.mem
    words := s.words
    lineKeys := s.lineKeys
    keyGens := s.keyGens
    poison := s.poison
    nextTask := s.nextTask
    pumpsStalled := s.pumpsStalled
    outbox := s.outbox
    rstcause := if s.refusedNext then 5 else cause }

/-- RESET (R472): causes 1 to 4 reset the package. -/
def execResetPackage (cause : BitVec 3) (s : State) : Result :=
  .next (if 1 ≤ cause.toNat ∧ cause.toNat ≤ 4 then s.resetFor cause else s)

/-- DRAM and shared memory are zero, empty, of format I32, under key 0 and with good codes (R472 step 3). -/
def State.clearMemory (s : State) : State :=
  { s with
    mem := s.mem.filter fun c => !(regionOf c.1).structured
    words := []
    lineKeys := []
    keyGens := []
    poison := s.poison.filter fun a => !(regionOf a).structured }

/-- The strokes that bring every segment of a domain from nothing to the floor: 39,375 pC each (R351, R352). -/
def floorStrokes (dom : Nat) : Nat := segmentsOf dom * 39375 / 64

/-- The pool charges every segment of the package to the floor, which no task is debited for (R353, R467, R472 step 4). -/
def State.chargeFloors (s : State) : State :=
  let floor := fun (d : Nat) (x : Domain) => { x with vmv := 420, low := 420, deliv := x.deliv + BitVec.ofNat 64 (floorStrokes d) }
  { s with hoops := s.hoops.map fun h => { h with domains := h.domains.mapIdx floor } }

/-- DRAM_TRAIN (R472 steps 3 and 4). -/
def execDramTrain (s : State) : Result :=
  .next <|
    if s.bringUp != .firmware then s
    else { s.clearMemory with bringUp := .trained }.chargeFloors.bringUpDone

/-- LINK_TRAINED (R472 step 6, R482): links train once bring-up is complete. -/
def execLinkTrained (port : Nat) (peer : BitVec 14) (s : State) : Result :=
  .next <|
    let st := (s.link port).st
    if s.up && (st == 0 || st == 2) then s.withLink port fun l => { l with st := 1, peer := peer, fails := 0 } else s

/-! ### Firmware and attestation (R473, R474) -/

/-- The three checks of a firmware image. -/
def FirmwareChecks (m : FirmwareImage) : Bool :=
  let digest := bigEndian m.digest.toNat 32
  sha256 (Config.keyEncoding m.modulus) == bigEndian Config.fusedKeyDigest.toNat 32 &&
    rsaVerify m.modulus m.signature digest && sha256 m.code == digest

/-- FIRMWARE_LOAD (R473). -/
def execFirmwareLoad (image : FirmwareImage) (s : State) : Result :=
  .next <|
    if FirmwareChecks image then
      { s with
        verif := true
        bobbin := { s.bobbin with code := image.code, loaded := true }
        bringUp := if s.bringUp = .reset then .firmware else s.bringUp }
    else ({ s with refusedNext := true }).send .firmwareRefused

/-- The report that R474 signs, without its signature. A digest of code that is not loaded is a free value. -/
def State.reportBody (s : State) (nonce : BitVec 256) : List Byte :=
  let code := if s.bobbin.loaded then sha256 s.bobbin.code
    else (List.range 8).flatMap fun k => bytesOfNat (Config.unstatedDetail s.fresh k).toNat 4
  bytesOfNat nonce.toNat 32 ++ bytesOfNat (0x4C40B000 ||| Word.ofBool s.verif).toNat 4 ++ bytesOfNat s.node.toNat 4 ++
    bigEndian Config.romDigest.toNat 32 ++ code ++ bigEndian Config.fuseDigest.toNat 32

/-- ATTESTATION_REQUEST (R474). -/
def execAttestationRequest (nonce : BitVec 256) (s : State) : Result :=
  .next <|
    let body := s.reportBody nonce
    let sign := rsaSign Config.attestModulus Config.attestExponent (sha256 body) (bigEndian (Config.attestSalt s.fresh).toNat 32)
    s.freshen.send (.attestation (body ++ sign) Config.attestCertificate)

/-- KEY_INSTALL (R475): every line written under the old key stops being readable. -/
def execKeyInstall (index : BitVec 12) (authentic : Bool) (s : State) : Result :=
  .next <|
    if authentic then
      { s with keyGens := (s.keyGens.filter fun (k : BitVec 12 × Nat) => k.1 != index) ++ [(index, s.keyGen index + 1)] }
    else s

/-! ### System agents (R19, R291, R408, R469, R470) -/

/-- The sideband's agent: it has no node, and its accesses cross no link. -/
def sideband : BitVec 14 := 0x3FFF

/-- An agent's access cannot reach the part now. -/
def State.agentHeld (s : State) (agent : BitVec 14) : Bool := agent != sideband && s.nodeHeld agent

/-- What an access of a system agent reaches. -/
inductive Reach where
  | memory | operand | registers | none
  deriving DecidableEq, Repr

def reachAt (pa : Nat) : Reach :=
  match regionOf pa with
  | .dram _ | .shared _ _ | .scratch _ => .memory
  | .operand _ => .operand
  | .registers => .registers
  | .host _ | .none => .none

/-- An access reaches what both its ends lie in. -/
def reachOf (pa n : Nat) : Reach := if reachAt pa = reachAt (pa + (n - 1)) then reachAt pa else .none

/-- Cut a write at every line. -/
def lineWrites (a : Nat) (bs : List Byte) : Nat → List (Nat × List Byte)
  | 0 => []
  | n + 1 => if bs.isEmpty then [] else (a, bs.take (64 - a % 64)) :: lineWrites (a + (64 - a % 64)) (bs.drop (64 - a % 64)) n

/-- A write of registers, by whole aligned words; both words of a 64-bit register move at once. `none` says that it
waits. -/
def State.agentRegisters (s : State) (off : Nat) (bs : List Byte) : Nat → Option State
  | 0 => some s
  | n + 1 =>
    if bs.length < 4 then some s
    else
      let wide := decide (8 ≤ bs.length) && ((regAt off).map Reg.wide).getD false
      let k := if wide then 8 else 4
      match s.writeRegWord ⟨off, wide, BitVec.ofNat 64 (natOfBytes (bs.take k)), false⟩ with
      | none => none
      | some s1 => s1.agentRegisters (off + k) (bs.drop k) n

/-- A write of memory, under key 0. What a structure conflict's entry names it by is not stated. -/
def State.agentMemory (s : State) (pa : Nat) (bs : List Byte) : State :=
  let who : Writer := ⟨0x3F, Config.unstatedDetail s.fresh 0⟩
  (lineWrites pa bs bs.length).foldl (fun s w => s.plainWrite w.1 w.2 0 who) s.freshen

/-- SYSTEM_AGENT_WRITE (R291, R408, R469, R470). -/
def execSystemAgentWrite (agent : BitVec 14) (pa : Nat) (bytes : List Byte) (s : State) : Result :=
  .next <|
    if s.agentHeld agent then s.block
    else match reachOf pa bytes.length with
      | .memory => s.agentMemory pa bytes
      | .operand => s
      | .registers =>
        if pa % 4 != 0 then s
        else (s.agentRegisters (pa - registerBase) bytes bytes.length).getD s.block
      | .none => s.logEvent 0x0A 0x3F (agent.zeroExtend 32) pa

/-- The bytes of `n` successive register words. -/
def State.registerBytes (s : State) (off : Nat) : Nat → List Byte × State
  | 0 => ([], s)
  | n + 1 =>
    match s.readRegWord off with
    | (w, s1) => match s1.registerBytes (off + 4) n with
      | (bs, s2) => (bytesOfNat w.toNat 4 ++ bs, s2)

/-- A read of memory, under key 0: bytes of a line whose code fails are not the line's. -/
def State.agentBytes (s : State) (pa n : Nat) : List Byte :=
  (List.range n).map fun k => if s.lineGood (pa + k) 0 then s.mem.read (pa + k) else Config.poisonedByte s.fresh k

/-- SYSTEM_AGENT_READ (R291, R408, R431, R469, R470). -/
def execSystemAgentRead (agent : BitVec 14) (pa n : Nat) (s : State) : Result :=
  .next <|
    if s.agentHeld agent then s.block
    else match reachOf pa n with
      | .memory =>
        match (List.range n).find? fun k => !s.lineGood (pa + k) 0 with
        | none => s.send (.readReply agent pa (s.agentBytes pa n) false)
        | some k =>
          (s.freshen.send (.readReply agent pa (s.agentBytes pa n) true)).logEvent 0x09 0x3F (agent.zeroExtend 32) (lineOf (pa + k))
      | .operand => s.send (.readReply agent pa (s.mem.readBytes pa n) false)
      | .registers =>
        match s.registerBytes (pa - pa % 4 - registerBase) ((pa % 4 + n + 3) / 4) with
        | (bs, s1) => s1.send (.readReply agent pa ((bs.drop (pa % 4)).take n) false)
      | .none => s.logEvent 0x0A 0x3F (agent.zeroExtend 32) pa

/-! ### Scrubs (R480, R483) -/

/-- CONFIG_SCRUB (R480, R481): an error is corrected, or the region's configuration is loaded again; where the placed copy is
lost too, or an uncorrectable error stands in another store of the task's state, the task takes F_ECC. One in DRAM or shared
memory poisons its line. `quad` 4 is the issue element. -/
def execConfigScrub (hoop quad : Nat) (found : ScrubFinding) (s : State) : Result :=
  .next <|
    match found with
    | .clean => s
    | .corrected n => s.logEvent 0x05 hoop (BitVec.ofNat 32 n) 0
    | .uncorrectable => s.logEvent 0x04 hoop (BitVec.ofNat 32 quad) 0
    | .copyLost => match s.holder hoop quad with
      | some t => s.freshen.raise t.id (.plain F_ECC 9 (Config.unstatedDetail s.fresh 1 &&& 0xFFF) 0 0)
      | none => s
    | .stateLost site x y => match s.holder hoop quad with
      | some t => s.raise t.id (.plain F_ECC (site.zeroExtend 32) ((y ++ x : BitVec 12).zeroExtend 32) 0 0)
      | none => s
    | .lineLost pa => if (regionOf pa).structured && !s.poison.contains (lineOf pa) then s.poisonLine pa else s

end Sys2Proof.Machine
end

