-- ==== Sys2Proof/Machine/Power.lean ====
section
/-!
DEFINITION. Power and heat (R455 to R468): the rails, the sensors and the thermal trip, the feed governor, and the control
period of the bobbin with its watchdog; and the clock of the package (R6).
-/

namespace Sys2Proof.Machine

/-! ### Sensors (R457, R458) -/

/-- RoundHalfUp(16 × T) of a code, saturated. The fused codes satisfy C30 < C100 (R458). -/
def temperature (c c30 c100 : Nat) : BitVec 12 :=
  let span : Int := (c100 : Int) - c30
  let num : Int := 16 * (30 * span + 70 * ((c : Int) - c30))
  let r := (2 * num + span) / (2 * span)
  BitVec.ofNat 12 (if r < 0 then 0 else Nat.min r.toNat 0xFFF)

/-- Sixteenths of a degree (R458). -/
def celsius (t : Nat) : Nat := 16 * t

/-- The samples of every diode. -/
def State.convertAll (s : State) : State :=
  { s with sensors := (List.range s.sensors.length).map fun n =>
      let c := Config.sensorCode n s.fresh
      ⟨true, c, temperature c.toNat (Config.calC30 n).toNat (Config.calC100 n).toNat⟩ }.freshen

/-- The temperature that a sensor of a tower reads. -/
def State.reading (s : State) (tower n : Nat) : Nat := (s.sensors.getD (32 * tower + n) ⟨false, 0, 0⟩).t16.toNat

/-! ### The thermal trip and the refresh windows (R463, R466) -/

/-- A store that a limiter has let down rises from where it has come to as its pump feeds it again: every store in FEED of
the hoops that `mine` names may stand as low as `low` says. -/
def State.sag (s : State) (mine : Nat → Bool) (low : Nat → Nat → Nat) : State :=
  let one := fun (h d : Nat) (x : Domain) =>
    if x.st = .feed ∧ x.schedule = false then { x with low := BitVec.ofNat 10 (Nat.min x.low.toNat (low h d)) } else x
  { s with hoops := s.hoops.mapIdx fun h x => if mine h then { x with domains := x.domains.mapIdx (one h) } else x }

/-- The rails of a tower's domains in schedule mode begin to move (R379, R463). -/
def State.moveRails (s : State) (k : Nat) : State :=
  (hoopsOf k).foldl (fun s h => (List.range 5).foldl (fun s d =>
    let x := s.domain h d
    if x.schedule && x.st == .feed && x.rail != s.railGoal h d then s.push (.targetMoveComplete h d) else s) s) s

/-- The trip of a tower is entered at 105.0 °C, and logged; it releases when every sensor reads below 102.0 °C. Its pumps
then hold their stores at 0.55 V, and its rails move there. -/
def State.compareTrip (s : State) (k : Nat) : State :=
  if s.trips.contains k then
    (if (List.range 32).all fun n => decide (s.reading k n < celsius 102) then
      State.moveRails { s.sag (fun h => h / 16 == k) s.holdMv with trips := s.trips.filter fun x => x != k } k else s)
  else match (List.range 32).find? fun n => decide (celsius 105 ≤ s.reading k n) with
    | some n => (({ s with trips := s.trips ++ [k] }).logEvent 0x0B 0x3F (BitVec.ofNat 32 (32 * k + n)) 0).moveRails k
    | none => s

/-- A DRAM die above 85.0 °C is refreshed faster, until it reads below 82.0 °C. -/
def State.compareDie (s : State) (k die : Nat) : State :=
  let n := 8 * k + die
  let t := s.reading k (21 + die)
  if s.hotDies.contains n then (if t < celsius 82 then { s with hotDies := s.hotDies.filter fun x => x != n } else s)
  else if celsius 85 < t then { s with hotDies := s.hotDies ++ [n] } else s

/-- The trips and the refresh windows after a sample. -/
def State.compareAll (s : State) : State :=
  let s1 := (List.range 4).foldl State.compareTrip s
  let s2 := (List.range 4).foldl (fun s k => (List.range 8).foldl (fun s d => s.compareDie k d) s) s1
  { s2 with bobbin := { s2.bobbin with acted := s2.bobbin.acted || !s2.trips.isEmpty } }

/-- SENSOR_SAMPLE (R457, R463): 110.0 °C or more at any sensor shuts the package down. -/
def execSensorSample (s : State) : Result :=
  .next
    (let s1 := s.convertAll
     if s1.sensors.any fun x => decide (celsius 110 ≤ x.t16.toNat) then s1.resetFor 4 else s1.compareAll)

/-! ### The control period (R459 to R464) -/

/-- Hundred times the firing interval of a domain at a voltage in mV: linear between the points of its table. -/
def interval (d mv : Nat) : Nat :=
  Config.firingInterval d (mv / 100) * (100 - mv % 100) + Config.firingInterval d (mv / 100 + 1) * (mv % 100)

/-- Firings per firing interval over a period, at least 1, as a fraction. -/
def activity (d mv fired : Nat) : Nat × Nat :=
  if fired * interval d mv ≤ 100 * 1000000000 then (1, 1) else (fired * interval d mv, 100 * 1000000000)

/-- The charge per firing at `v` mV, up to a factor that all candidates share, with a dynamic charge of `qf`. -/
def chargeAt (qf d now leak : Nat) (a : Nat × Nat) (v : Nat) : Nat :=
  v * (qf * 1000 * now * 100 * a.1 + 800 * leak * interval d v * a.2)

/-- The candidate with the least charge per firing: the higher one on a tie (R460). -/
def cheapest (q : Nat → Nat) : Nat :=
  (List.range 10).foldl (fun best k => if q (550 + 50 * k) ≤ q best then 550 + 50 * k else best) 550

/-- The target that R460 chooses for a domain, by policy; a domain that ran no task in the period keeps its own. -/
def State.candidate (s : State) (h d : Nat) : Nat :=
  let x := s.domain h d
  let n := 5 * h + d
  if !x.ranLast then x.mv.toNat
  else if s.bobbin.policy then 1000
  else cheapest (chargeAt s.bobbin.qf n x.cur.toNat (Config.leakage s.bobbin.seen n) (activity n x.cur.toNat x.fired.toNat))

/-- What a diode of a tower read in the snapshot of the period. -/
def Bobbin.reading (b : Bobbin) (tower n : Nat) : Nat := (b.temps.getD (32 * tower + n) 0).toNat

/-- The thermal bound applies to a tower (R461). -/
def State.hot (s : State) (k : Nat) : Bool :=
  let b := s.bobbin
  ((List.range 21).any fun n => decide (celsius b.tjt.toNat < b.reading k n)) || decide (celsius b.tjt.toNat < b.reading k 31) ||
    (List.range 8).any fun die => decide (celsius 100 < b.reading k (21 + die))

/-- The package power of the last period exceeded its cap, and by how much. -/
def State.overPower (s : State) : Bool := decide (s.bobbin.capw.toNat < (Config.packagePower s.bobbin.seen).toNat)
def State.excessPower (s : State) : Nat := (Config.packagePower s.bobbin.seen).toNat - s.bobbin.capw.toNat

/-- The leading domains of a list whose estimated savings cover an excess. -/
def covering (saving : Nat → Nat) : Nat → List Nat → List Nat
  | _, [] => []
  | e, d :: ds => if e = 0 then [] else d :: covering saving (e - saving d) ds

/-- The domains of the package, in descending order of the pump-rail charge that each drew in the last period. -/
def State.byCharge (s : State) : List Nat :=
  let drew := fun (n : Nat) => (s.domain (n / 5) (n % 5)).drew
  (List.range 320).foldr (fun n l => insertLe (fun a b => decide (drew b ≤ drew a)) n l) []

/-- The domains that the power bound lowers (R461): those that drew most, until the estimated reduction covers the excess. -/
def State.powerLowered (s : State) : List Nat :=
  if s.overPower then covering (Config.powerSaving s.bobbin.seen) s.excessPower s.byCharge else []

/-- The bounded target, and whether a bound holds it below the candidate (R461). `power` lists the domains that the power
bound lowers. -/
def State.boundTarget (s : State) (power : List Nat) (h d : Nat) : Nat × Bool :=
  let c := s.candidate h d
  let x := s.domain h d
  if s.hot (h / 16) || power.contains (5 * h + d) then
    let v := Nat.max 550 (Nat.min c (x.mv.toNat - 25))
    (v, decide (v < c))
  else if x.bounded && decide (x.mv.toNat < c) then
    let step := if s.overPower then 0 else Nat.min 25 (Config.restoreStep s.bobbin.seen (5 * h + d))
    let v := Nat.min c (x.mv.toNat + step)
    (v, decide (v < c))
  else (Nat.max 550 (Nat.min 1000 c), false)

/-- The targets of a period are chosen (R459 step 2); those that have changed are to be written. -/
def State.chooseTargets (s : State) : State :=
  let power := s.powerLowered
  let choice := fun (h d : Nat) => s.boundTarget power h d
  let changed := (List.range 320).filterMap fun n =>
    let v := (choice (n / 5) (n % 5)).1
    if v ≠ (s.domain (n / 5) (n % 5)).mv.toNat then some (n, BitVec.ofNat 10 v) else none
  let mark := fun (h d : Nat) (x : Domain) => { x with bounded := (choice h d).2 }
  { s with
    hoops := s.hoops.mapIdx fun h x => { x with domains := x.domains.mapIdx (mark h) }
    bobbin := { s.bobbin with writes := some (if s.bobbin.en then changed else []) } }

/-- PK_FEEDCAP and BB_STAT at the end of a period (R459 step 4, R462, R464). A cap that the fixed rail leaves nothing of is
not stated. -/
def State.reportPeriod (s : State) : State :=
  let b := s.bobbin
  let fixed := Config.fixedRailPower b.seen
  { s with
    feedcap := if fixed.toNat < b.capw.toNat then b.capw - fixed else (Config.unstatedDetail b.seen 0).extractLsb' 0 12
    bobbin := { b with
      trip := b.acted || !s.trips.isEmpty
      tbnd := (List.range 4).any s.hot
      pbnd := s.overPower
      acted := !s.trips.isEmpty
      pwr := Config.packagePower b.seen
      beat := b.beat + 1
      pumpmv := Config.pumpRailMv b.seen
      due := false
      writes := none } }

/-- The next act of a period that has begun: its targets are chosen, one of them is written, or its report ends it. -/
def State.periodAct (s : State) : State :=
  match s.bobbin.writes with
  | none => s.chooseTargets
  | some ((n, v) :: rest) =>
    ({ s with bobbin := { s.bobbin with writes := some rest } }).writeQmTarget (n / 5) (n % 5) (v.zeroExtend 64) 0x3FF true
  | some [] => s.reportPeriod

/-- CONTROL_PERIOD (R459): the acts of a period whose snapshot has been taken, one after another. -/
def execControlPeriod (s : State) : Result :=
  .next (if s.bobbin.due then (if s.periodAct.bobbin.due then s.periodAct.push .controlPeriod else s.periodAct) else s)

/-- WATCHDOG_FIRE (R464): 700 mV to every domain that is not pinned. -/
def execWatchdogFire (s : State) : Result :=
  .next
    (let s1 := (List.range 64).foldl (fun s h => (List.range 5).foldl (fun s d =>
       if (s.domain h d).pin then s else s.setTarget h d 0x2BC) s) s
     { s1 with bobbin := { s1.bobbin with wdog := true } })

/-! ### The feed governor and the pump rail (R456, R462) -/

/-- FEED_WINDOW (R462): a new window begins, and the pumps feed to their fill voltages again. -/
def execFeedWindow (s : State) : Result :=
  .next { (if s.capReached then s.sag (fun _ => true) s.holdMv else s) with capReached := false, windowFeed := 0 }

/-- FEEDCAP_REACHED (R462): the energy of the window has reached the cap; the window is counted once. A cap of 0 disables
the governor. -/
def execFeedcapReached (s : State) : Result :=
  .next <|
    if s.feedcap = 0 ∨ s.capReached then s
    else { s with capReached := true, thrw := if s.thrw = 0xFFFFFFFF then s.thrw else s.thrw + 1 }

/-- PUMP_RAIL_LOW (R456): every pump stalls. -/
def execPumpRailLow (s : State) : Result := .next { s with pumpsStalled := true }

/-- PUMP_RAIL_RESTORE (R456): the pumps feed again the stores that have drained meanwhile. -/
def execPumpRailRestore (s : State) : Result :=
  .next { (if s.pumpsStalled then s.sag (fun _ => true) (fun _ _ => 420) else s) with pumpsStalled := false }

/-- DRAM_REFRESH (R466): it changes no result, only latencies. -/
def execDramRefresh (_tower _die : Nat) (s : State) : Result := .next s

/-! ### The clock (R6) -/

/-- Ceilings of leave fall (R377). -/
def State.fallCeilings (s : State) : State :=
  (List.range 64).foldl (fun s h => (List.range 5).foldl (fun s d =>
    if (s.domain h d).ceil = (s.domain h d).committed then s else s.fallCeiling h d) s) s

/-- Closed episodes whose deadline has ended expire (R447). -/
def State.expireEpisodes (s : State) : State :=
  (List.range 4).foldl (fun s k => ((s.tower k).join.episodes.map (·.entry)).foldl (fun s e => s.expire k e) s) s

/-- The closed and the expired episodes are looked at again, whatever has filled or emptied their slots in the tick (R447). -/
def State.settleRewards (s : State) : State := (List.range 4).foldl State.settleEpisodes s

/-- The schedulers see the ready tasks age, hold for one that has waited long, and pre-empt for one that has waited long enough
(R318, R320, R348). -/
def State.ageReady (s : State) : State :=
  (List.range 4).foldl (fun s k =>
    if s.up then ((if s.ages k then s.push (.schedulerScan k) else s).noteHeld k).preemptVictims k else s) s

/-- The bobbin's watchdog looks at BEAT once in every period, and fires when four have not changed it (R464). -/
def State.watchBeat (s : State) : State :=
  let b := s.bobbin
  let stale := if b.beat = b.lastBeat then b.stale + 1 else 0
  let s1 := { s with bobbin := { b with lastBeat := b.beat, stale := Nat.min stale 5 } }
  if stale = 4 then s1.push .watchdogFire else s1

/-- A domain in the snapshot of a period: what it fired and drew in the last one (R459 step 1). -/
def Domain.snapshot (x : Domain) : Domain :=
  { x with
    fired := x.fire - x.fireSeen, drew := x.deliv - x.delivSeen
    fireSeen := x.fire, delivSeen := x.deliv, retnSeen := x.retn
    ranLast := x.ran, ran := x.st != .idle && !x.kept }

/-- A control period begins with its snapshot (R459 step 1). A bobbin without firmware runs none. -/
def State.beginPeriod (s : State) : State :=
  if s.bobbin.loaded then
    ({ s with
      hoops := s.hoops.map fun (h : Hoop) => { h with domains := h.domains.map Domain.snapshot }
      bobbin := { s.bobbin with due := true, temps := s.sensors.map fun (x : Sensor) => x.t16, seen := s.fresh, writes := none } }).freshen.push .controlPeriod
  else s

/-- What begins at a tick: samples every 100,000, windows of the feed governor every 10,000 and control periods every
1,000,000 (R457, R459, R462). -/
def State.beginPeriods (s : State) : State :=
  let n := s.time.toNat
  let s1 := if n % 10000 = 0 then s.push .feedWindow else s
  let s2 := if n % 100000 = 0 then s1.push .sensorSample else s1
  if n % 1000000 = 0 then s2.watchBeat.beginPeriod else s2

/-- The acts of a period are done by its 200,000th tick (R459). -/
def State.finishPeriod (s : State) : State :=
  if s.bobbin.due && decide (199999 ≤ s.time.toNat % 1000000) then
    (List.range 323).foldl (fun s _ => if s.bobbin.due then s.periodAct else s) s
  else s

/-- What the end of a tick brings: bounded waits expire, episodes settle, and a control period is done in time. -/
def State.endTick (s : State) : State := s.judgeQueues.settleRewards.finishPeriod

/-- PACKAGE_TICK (R6). -/
def execPackageTick (s : State) : Result :=
  .next ({ s.endTick with time := s.time + 1 }.countQuiet.fallCeilings.expireEpisodes.ageReady.beginPeriods)

end Sys2Proof.Machine
end

