-- ==== Sys2Proof/Machine/Dispatch.lean ====
section
/-!
DEFINITION. The dispatch: one arm for each row of the opcode table, each a direct call of its meaning.
-/

namespace Sys2Proof.Machine

def exec (i : Instr) (s : State) : Host.Outcome State Fault Refusal :=
  match i with
  | .add f => Sys2Proof.Machine.execAdd f s
  | .sub f => Sys2Proof.Machine.execSub f s
  | .adds f => Sys2Proof.Machine.execAdds f s
  | .subs f => Sys2Proof.Machine.execSubs f s
  | .addus f => Sys2Proof.Machine.execAddus f s
  | .subus f => Sys2Proof.Machine.execSubus f s
  | .mul f => Sys2Proof.Machine.execMul f s
  | .mulh f => Sys2Proof.Machine.execMulh f s
  | .mulhu f => Sys2Proof.Machine.execMulhu f s
  | .div f => Sys2Proof.Machine.execDiv f s
  | .divu f => Sys2Proof.Machine.execDivu f s
  | .rem f => Sys2Proof.Machine.execRem f s
  | .remu f => Sys2Proof.Machine.execRemu f s
  | .and f => Sys2Proof.Machine.execAnd f s
  | .or f => Sys2Proof.Machine.execOr f s
  | .xor f => Sys2Proof.Machine.execXor f s
  | .andn f => Sys2Proof.Machine.execAndn f s
  | .shl f => Sys2Proof.Machine.execShl f s
  | .shr f => Sys2Proof.Machine.execShr f s
  | .sar f => Sys2Proof.Machine.execSar f s
  | .rol f => Sys2Proof.Machine.execRol f s
  | .clz f => Sys2Proof.Machine.execClz f s
  | .ctz f => Sys2Proof.Machine.execCtz f s
  | .popc f => Sys2Proof.Machine.execPopc f s
  | .brev f => Sys2Proof.Machine.execBrev f s
  | .min f => Sys2Proof.Machine.execMin f s
  | .max f => Sys2Proof.Machine.execMax f s
  | .minu f => Sys2Proof.Machine.execMinu f s
  | .maxu f => Sys2Proof.Machine.execMaxu f s
  | .abs f => Sys2Proof.Machine.execAbs f s
  | .neg f => Sys2Proof.Machine.execNeg f s
  | .sel f => Sys2Proof.Machine.execSel f s
  | .extb f => Sys2Proof.Machine.execExtb f s
  | .exth f => Sys2Proof.Machine.execExth f s
  | .bfx f => Sys2Proof.Machine.execBfx f s
  | .bfi f => Sys2Proof.Machine.execBfi f s
  | .teq f => Sys2Proof.Machine.execTeq f s
  | .tne f => Sys2Proof.Machine.execTne f s
  | .tlt f => Sys2Proof.Machine.execTlt f s
  | .tle f => Sys2Proof.Machine.execTle f s
  | .tltu f => Sys2Proof.Machine.execTltu f s
  | .tleu f => Sys2Proof.Machine.execTleu f s
  | .muladd f => Sys2Proof.Machine.execMuladd f s
  | .fadd f => Sys2Proof.Machine.execFadd f s
  | .fsub f => Sys2Proof.Machine.execFsub f s
  | .fmul f => Sys2Proof.Machine.execFmul f s
  | .ffma f => Sys2Proof.Machine.execFfma f s
  | .ffms f => Sys2Proof.Machine.execFfms f s
  | .fmin f => Sys2Proof.Machine.execFmin f s
  | .fmax f => Sys2Proof.Machine.execFmax f s
  | .fabs f => Sys2Proof.Machine.execFabs f s
  | .fneg f => Sys2Proof.Machine.execFneg f s
  | .feq f => Sys2Proof.Machine.execFeq f s
  | .flt f => Sys2Proof.Machine.execFlt f s
  | .fle f => Sys2Proof.Machine.execFle f s
  | .funo f => Sys2Proof.Machine.execFuno f s
  | .fclass f => Sys2Proof.Machine.execFclass f s
  | .frnd f => Sys2Proof.Machine.execFrnd f s
  | .fdiv f => Sys2Proof.Machine.execFdiv f s
  | .fsqrt f => Sys2Proof.Machine.execFsqrt f s
  | .frcp f => Sys2Proof.Machine.execFrcp f s
  | .frsq f => Sys2Proof.Machine.execFrsq f s
  | .fexp2 f => Sys2Proof.Machine.execFexp2 f s
  | .flog2 f => Sys2Proof.Machine.execFlog2 f s
  | .mov f => Sys2Proof.Machine.execMov f s
  | .nullTok f => Sys2Proof.Machine.execNullTok f s
  | .steer f => Sys2Proof.Machine.execSteer f s
  | .merge f => Sys2Proof.Machine.execMerge f s
  | .exit exit => Sys2Proof.Machine.execExit exit s
  | .read f => Sys2Proof.Machine.execRead f s
  | .write f => Sys2Proof.Machine.execWrite f s
  | .loopi f => Sys2Proof.Machine.execLoopi f s
  | .brk f => Sys2Proof.Machine.execBrk f s
  | .call f => Sys2Proof.Machine.execCall f s
  | .ret f => Sys2Proof.Machine.execRet f s
  | .iterv f => Sys2Proof.Machine.execIterv f s
  | .ctxv f => Sys2Proof.Machine.execCtxv f s
  | .workid f => Sys2Proof.Machine.execWorkid f s
  | .pmark f => Sys2Proof.Machine.execPmark f s
  | .comb f => Sys2Proof.Machine.execComb f s
  | .eos f => Sys2Proof.Machine.execEos f s
  | .barr f => Sys2Proof.Machine.execBarr f s
  | .bwait f => Sys2Proof.Machine.execBwait f s
  | .fence f => Sys2Proof.Machine.execFence f s
  | .split f => Sys2Proof.Machine.execSplit f s
  | .join f => Sys2Proof.Machine.execJoin f s
  | .hdrt f => Sys2Proof.Machine.execHdrt f s
  | .ld f width sx => Sys2Proof.Machine.execLd f width sx s
  | .st f width => Sys2Proof.Machine.execSt f width s
  | .ldv f fmt => Sys2Proof.Machine.execLdv f fmt s
  | .stv f fmt => Sys2Proof.Machine.execStv f fmt s
  | .sopenRead f fmt => Sys2Proof.Machine.execSopenRead f fmt s
  | .sopenWrite f fmt => Sys2Proof.Machine.execSopenWrite f fmt s
  | .sindRead f fmt => Sys2Proof.Machine.execSindRead f fmt s
  | .sindWrite f fmt => Sys2Proof.Machine.execSindWrite f fmt s
  | .sclose f => Sys2Proof.Machine.execSclose f s
  | .sbar f => Sys2Proof.Machine.execSbar f s
  | .iread f => Sys2Proof.Machine.execIread f s
  | .iwrite f => Sys2Proof.Machine.execIwrite f s
  | .iclear f => Sys2Proof.Machine.execIclear f s
  | .aadd f => Sys2Proof.Machine.execAadd f s
  | .afadd f => Sys2Proof.Machine.execAfadd f s
  | .amin f => Sys2Proof.Machine.execAmin f s
  | .amax f => Sys2Proof.Machine.execAmax f s
  | .aminu f => Sys2Proof.Machine.execAminu f s
  | .amaxu f => Sys2Proof.Machine.execAmaxu f s
  | .aand f => Sys2Proof.Machine.execAand f s
  | .aor f => Sys2Proof.Machine.execAor f s
  | .axor f => Sys2Proof.Machine.execAxor f s
  | .aswap f => Sys2Proof.Machine.execAswap f s
  | .acas f => Sys2Proof.Machine.execAcas f s
  | .afmin f => Sys2Proof.Machine.execAfmin f s
  | .afmax f => Sys2Proof.Machine.execAfmax f s
  | .atomsc f op => Sys2Proof.Machine.execAtomsc f op s
  | .lock f => Sys2Proof.Machine.execLock f s
  | .unlock f => Sys2Proof.Machine.execUnlock f s
  | .qput f => Sys2Proof.Machine.execQput f s
  | .qget f => Sys2Proof.Machine.execQget f s
  | .cvt f => Sys2Proof.Machine.execCvt f s
  | .padd2 f => Sys2Proof.Machine.execPadd2 f s
  | .pmul2 f => Sys2Proof.Machine.execPmul2 f s
  | .pfma2 f => Sys2Proof.Machine.execPfma2 f s
  | .dot2 f => Sys2Proof.Machine.execDot2 f s
  | .dot4 f => Sys2Proof.Machine.execDot4 f s
  | .reord f => Sys2Proof.Machine.execReord f s
  | .qsend f => Sys2Proof.Machine.execQsend f s
  | .oslotClaim f => Sys2Proof.Machine.execOslotClaim f s
  | .oslotRelease f => Sys2Proof.Machine.execOslotRelease f s
  | .oploadDense f => Sys2Proof.Machine.execOploadDense f s
  | .oploadSparse f => Sys2Proof.Machine.execOploadSparse f s
  | .oploadCodebook f => Sys2Proof.Machine.execOploadCodebook f s
  | .mma f => Sys2Proof.Machine.execMma f s
  | .accZero f => Sys2Proof.Machine.execAccZero f s
  | .accRead f => Sys2Proof.Machine.execAccRead f s
  | .accPeek f => Sys2Proof.Machine.execAccPeek f s
  | .accWrite f => Sys2Proof.Machine.execAccWrite f s
  | .accStore f => Sys2Proof.Machine.execAccStore f s
  | .topup f => Sys2Proof.Machine.execTopup f s
  | .tack f => Sys2Proof.Machine.execTack f s
  | .leave f => Sys2Proof.Machine.execLeave f s
  | .meter f => Sys2Proof.Machine.execMeter f s
  | .grant f => Sys2Proof.Machine.execGrant f s
  | .resumev f => Sys2Proof.Machine.execResumev f s
  | .launch f => Sys2Proof.Machine.execLaunch f s
  | .nextw f => Sys2Proof.Machine.execNextw f s
  | .trap f => Sys2Proof.Machine.execTrap f s
  | .srd f => Sys2Proof.Machine.execSrd f s
  | .swr f => Sys2Proof.Machine.execSwr f s
  | .time f => Sys2Proof.Machine.execTime f s
  | .freeze f => Sys2Proof.Machine.execFreeze f s
  | .thaw f => Sys2Proof.Machine.execThaw f s
  | .preempt f => Sys2Proof.Machine.execPreempt f s
  | .copy f => Sys2Proof.Machine.execCopy f s
  | .gather f => Sys2Proof.Machine.execGather f s
  | .scatter f => Sys2Proof.Machine.execScatter f s
  | .allreduce f => Sys2Proof.Machine.execAllreduce f s
  | .allgather f => Sys2Proof.Machine.execAllgather f s
  | .reducescatter f => Sys2Proof.Machine.execReducescatter f s
  | .broadcast f => Sys2Proof.Machine.execBroadcast f s
  | .remwr f => Sys2Proof.Machine.execRemwr f s
  | .rematom f => Sys2Proof.Machine.execRematom f s
  | .lwopen f => Sys2Proof.Machine.execLwopen f s
  | .lwclose f => Sys2Proof.Machine.execLwclose f s
  | .epopen f => Sys2Proof.Machine.execEpopen f s
  | .epstep f => Sys2Proof.Machine.execEpstep f s
  | .epend f => Sys2Proof.Machine.execEpend f s
  | .rwsend f => Sys2Proof.Machine.execRwsend f s
  | .jcfg f => Sys2Proof.Machine.execJcfg f s
  | .lvset f => Sys2Proof.Machine.execLvset f s
  | .jstat f => Sys2Proof.Machine.execJstat f s
  | .tokenArrival fl => Sys2Proof.Machine.execTokenArrival fl s
  | .spillSearch fl => Sys2Proof.Machine.execSpillSearch fl s
  | .heldTokenAccept fl => Sys2Proof.Machine.execHeldTokenAccept fl s
  | .headerLatchFreed fl => Sys2Proof.Machine.execHeaderLatchFreed fl s
  | .tokenRoute fl => Sys2Proof.Machine.execTokenRoute fl s
  | .contextGrant r => Sys2Proof.Machine.execContextGrant r s
  | .sweepStart hoop => Sys2Proof.Machine.execSweepStart hoop s
  | .sweepEnd hoop => Sys2Proof.Machine.execSweepEnd hoop s
  | .instanceCommit task inst => Sys2Proof.Machine.execInstanceCommit task inst s
  | .heldExitDelivery task d => Sys2Proof.Machine.execHeldExitDelivery task d s
  | .quiescenceTimeout task => Sys2Proof.Machine.execQuiescenceTimeout task s
  | .entryInjection task => Sys2Proof.Machine.execEntryInjection task s
  | .loopiIssue task id => Sys2Proof.Machine.execLoopiIssue task id s
  | .heldFaultRecheck task op j => Sys2Proof.Machine.execHeldFaultRecheck task op j s
  | .loadOrderRelease task op j => Sys2Proof.Machine.execLoadOrderRelease task op j s
  | .translationWalk task op j => Sys2Proof.Machine.execTranslationWalk task op j s
  | .readComplete task op j => Sys2Proof.Machine.execReadComplete task op j s
  | .streamEngineAcquire task op j => Sys2Proof.Machine.execStreamEngineAcquire task op j s
  | .circuitSetup task op j => Sys2Proof.Machine.execCircuitSetup task op j s
  | .streamElementAccess task sid => Sys2Proof.Machine.execStreamElementAccess task sid s
  | .streamDataArrival fl => Sys2Proof.Machine.execStreamDataArrival fl s
  | .scoreboardWaitEnd task op j => Sys2Proof.Machine.execScoreboardWaitEnd task op j s
  | .atOnceRelease task op j => Sys2Proof.Machine.execAtOnceRelease task op j s
  | .bankOperation task op j => Sys2Proof.Machine.execBankOperation task op j s
  | .bankReply task op j r => Sys2Proof.Machine.execBankReply task op j r s
  | .atomscTokenVisit bank => Sys2Proof.Machine.execAtomscTokenVisit bank s
  | .structRequest task op j => Sys2Proof.Machine.execStructRequest task op j s
  | .structPoolWaitEnd task op j => Sys2Proof.Machine.execStructPoolWaitEnd task op j s
  | .readerCancel task id => Sys2Proof.Machine.execReaderCancel task id s
  | .lockRelease task op j => Sys2Proof.Machine.execLockRelease task op j s
  | .lockTileWaitEnd task op j => Sys2Proof.Machine.execLockTileWaitEnd task op j s
  | .queuePutServe task op j => Sys2Proof.Machine.execQueuePutServe task op j s
  | .queueGetServe task op j => Sys2Proof.Machine.execQueueGetServe task op j s
  | .queueWaitExpire task op j => Sys2Proof.Machine.execQueueWaitExpire task op j s
  | .enginePortDepart task op j => Sys2Proof.Machine.execEnginePortDepart task op j s
  | .engineCommandStart tower engine => Sys2Proof.Machine.execEngineCommandStart tower engine s
  | .engineCommandComplete task op j => Sys2Proof.Machine.execEngineCommandComplete task op j s
  | .rowLanding row => Sys2Proof.Machine.execRowLanding row s
  | .landingAck task op j node => Sys2Proof.Machine.execLandingAck task op j node s
  | .failureAck task op j node reason => Sys2Proof.Machine.execFailureAck task op j node reason s
  | .commitTokenReceive sender => Sys2Proof.Machine.execCommitTokenReceive sender s
  | .abortTokenReceive sender => Sys2Proof.Machine.execAbortTokenReceive sender s
  | .remoteAtomicReceive m => Sys2Proof.Machine.execRemoteAtomicReceive m s
  | .remoteAtomicReply task op j value flags => Sys2Proof.Machine.execRemoteAtomicReply task op j value flags s
  | .collContribution c => Sys2Proof.Machine.execCollContribution c s
  | .hostToken chan node data => Sys2Proof.Machine.execHostToken chan node data s
  | .hostQueueWaitEnd chan token => Sys2Proof.Machine.execHostQueueWaitEnd chan token s
  | .flitReceive port good => Sys2Proof.Machine.execFlitReceive port good s
  | .flitRetry port => Sys2Proof.Machine.execFlitRetry port s
  | .linkDown port => Sys2Proof.Machine.execLinkDown port s
  | .linkRetrain port => Sys2Proof.Machine.execLinkRetrain port s
  | .launchDecrement line => Sys2Proof.Machine.execLaunchDecrement line s
  | .readyNoticeWaitEnd n => Sys2Proof.Machine.execReadyNoticeWaitEnd n s
  | .readinessCheck n => Sys2Proof.Machine.execReadinessCheck n s
  | .schedulerScan tower => Sys2Proof.Machine.execSchedulerScan tower s
  | .agingStep tower task => Sys2Proof.Machine.execAgingStep tower task s
  | .blockFetch task => Sys2Proof.Machine.execBlockFetch task s
  | .launchResources task => Sys2Proof.Machine.execLaunchResources task s
  | .meterLevel task => Sys2Proof.Machine.execMeterLevel task s
  | .fillComplete task dom => Sys2Proof.Machine.execFillComplete task dom s
  | .placementCheck task => Sys2Proof.Machine.execPlacementCheck task s
  | .taskCommit task => Sys2Proof.Machine.execTaskCommit task s
  | .commitDrain task => Sys2Proof.Machine.execCommitDrain task s
  | .commitTokenSend task => Sys2Proof.Machine.execCommitTokenSend task s
  | .commitRelease task => Sys2Proof.Machine.execCommitRelease task s
  | .taskAbort task => Sys2Proof.Machine.execTaskAbort task s
  | .park task => Sys2Proof.Machine.execPark task s
  | .faultQueueAppend tower r => Sys2Proof.Machine.execFaultQueueAppend tower r s
  | .preemptFreeze task save => Sys2Proof.Machine.execPreemptFreeze task save s
  | .preemptSave task => Sys2Proof.Machine.execPreemptSave task s
  | .restoreTask task => Sys2Proof.Machine.execRestoreTask task s
  | .pumpFeed hoop dom strokes => Sys2Proof.Machine.execPumpFeed hoop dom strokes s
  | .floorStop hoop dom => Sys2Proof.Machine.execFloorStop hoop dom s
  | .topupPoolServe task op j => Sys2Proof.Machine.execTopupPoolServe task op j s
  | .topupApply task op j granted => Sys2Proof.Machine.execTopupApply task op j granted s
  | .targetMoveComplete hoop dom => Sys2Proof.Machine.execTargetMoveComplete hoop dom s
  | .leaveCeilingRaise hoop dom => Sys2Proof.Machine.execLeaveCeilingRaise hoop dom s
  | .leaveCeilingFall hoop dom => Sys2Proof.Machine.execLeaveCeilingFall hoop dom s
  | .leaveViolation task master committed drawn => Sys2Proof.Machine.execLeaveViolation task master committed drawn s
  | .mmaComplete task op j => Sys2Proof.Machine.execMmaComplete task op j s
  | .oploadComplete task op j => Sys2Proof.Machine.execOploadComplete task op j s
  | .sparseCoordinate fl => Sys2Proof.Machine.execSparseCoordinate fl s
  | .rewardArrival m => Sys2Proof.Machine.execRewardArrival m s
  | .episodeDeadline tower entry => Sys2Proof.Machine.execEpisodeDeadline tower entry s
  | .episodeScan tower entry => Sys2Proof.Machine.execEpisodeScan tower entry s
  | .episodeRelease tower entry => Sys2Proof.Machine.execEpisodeRelease tower entry s
  | .pkPoolWrite w => Sys2Proof.Machine.execPkPoolWrite w s
  | .qmTargetWrite w => Sys2Proof.Machine.execQmTargetWrite w s
  | .qmCtlWrite w => Sys2Proof.Machine.execQmCtlWrite w s
  | .hcQuietWrite w => Sys2Proof.Machine.execHcQuietWrite w s
  | .pkTlbinvWrite w => Sys2Proof.Machine.execPkTlbinvWrite w s
  | .tlbInvalidateDone => Sys2Proof.Machine.execTlbInvalidateDone s
  | .pkCtlRun w => Sys2Proof.Machine.execPkCtlRun w s
  | .pkNodeWrite w => Sys2Proof.Machine.execPkNodeWrite w s
  | .jtCtlWrite w => Sys2Proof.Machine.execJtCtlWrite w s
  | .registerWrite w => Sys2Proof.Machine.execRegisterWrite w s
  | .sensorSample => Sys2Proof.Machine.execSensorSample s
  | .controlPeriod => Sys2Proof.Machine.execControlPeriod s
  | .watchdogFire => Sys2Proof.Machine.execWatchdogFire s
  | .feedWindow => Sys2Proof.Machine.execFeedWindow s
  | .feedcapReached => Sys2Proof.Machine.execFeedcapReached s
  | .pumpRailLow => Sys2Proof.Machine.execPumpRailLow s
  | .pumpRailRestore => Sys2Proof.Machine.execPumpRailRestore s
  | .dramRefresh tower die => Sys2Proof.Machine.execDramRefresh tower die s
  | .packageTick => Sys2Proof.Machine.execPackageTick s
  | .resetPackage cause => Sys2Proof.Machine.execResetPackage cause s
  | .dramTrain => Sys2Proof.Machine.execDramTrain s
  | .firmwareLoad image => Sys2Proof.Machine.execFirmwareLoad image s
  | .attestationRequest nonce => Sys2Proof.Machine.execAttestationRequest nonce s
  | .keyInstall index authentic => Sys2Proof.Machine.execKeyInstall index authentic s
  | .systemAgentWrite agent pa bytes => Sys2Proof.Machine.execSystemAgentWrite agent pa bytes s
  | .systemAgentRead agent pa n => Sys2Proof.Machine.execSystemAgentRead agent pa n s
  | .configScrub hoop quad found => Sys2Proof.Machine.execConfigScrub hoop quad found s
  | .preemptionWaitElapsed tower => Sys2Proof.Machine.execPreemptionWaitElapsed tower s
  | .linkTrained port peer => Sys2Proof.Machine.execLinkTrained port peer s

end Sys2Proof.Machine
end

