-- ==== Sys2Proof/Machine/Step.lean ====
section
/-!
DEFINITION. One step of the package: the next piece of work is taken up. A complete matched set that
claims issue fires its decoded instruction, an event happens, and when nothing else can happen package
time advances by a tick. The decisions are operations of the other files.
-/

namespace Sys2Proof.Machine

/-- What the step does with the item it has taken. What has passed an ordering point ahead of an event's access to memory
performs before it (R293). -/
def State.perform (s : State) (k : Nat) (it : Item) : Host.Outcome State Fault Refusal :=
  match it with
  | .event e => if s.channelHeld k it then .next (s.take k it).block else exec e ((s.take k it).settleBefore e)
  | .firing g =>
    match s.claim k g with
    | .drop => .next (s.take k it)
    | .wait => .next (s.take k it).block
    | .refuse w => .refused (.undecodable w)
    | .fire m i => exec i ((s.take k it).fireFirst k g m)

/-- One step. Instances that meet the conditions of R188 are admitted before anything is taken up. -/
def step (s : State) : Host.Outcome State Fault Refusal :=
  match s.noteAdmitted.select with
  | (k, s1) =>
    match s1.agenda[k]? with
    | none => exec .packageTick s1.idle
    | some it => s1.perform k it

/-- The state in which the next step fetches and runs the instruction whose bits are `w` (log entry 1). -/
def State.withFetchWord (s : State) (nbits w : Nat) : State :=
  s.placeWord (BitVec.ofNat 32 (w % 2 ^ nbits))

end Sys2Proof.Machine
end

