-- ==== Sys2Proof/Safety.lean ====
section
/-!
DEFINITION. What counts as a safe run: a step that neither faults nor is refused, and the form of memory
that every step keeps.
-/

namespace Sys2Proof.Machine

/-- The machine goes on from this state. -/
def Advances (s : State) : Prop := ∃ t, step s = .next t

/-- The memory of the state is in its canonical form. -/
abbrev State.MemoryWf (s : State) : Prop := s.mem.wf = true

end Sys2Proof.Machine
end

