-- ==== Sys2Proof/Certificates/Slice0/Obligations.lean ====
section
/-!
DEFINITION. The statements for the provers. What a statement needs to say what the manual says, and no meaning of the
model, stands first.
-/

open Sys2Proof Sys2Proof.Machine

namespace Sys2Proof.Claims

/-! ### A set that fires -/

/-- A set of task `t`, which is in store mode (R361), is being fired. Its debits have then no effect on the account
(R359); schedule mode has statements of its own. -/
def Fires (s : State) (g : Firing) (t : Task) : Prop :=
  s.firing? = some g ∧ s.task? g.task = some t ∧ t.schedule = false

/-- The state after the words of a set have fired, each counted in the domain of its site (R467). -/
def counted (s : State) (g : Firing) (t : Task) : State :=
  (List.range g.n).foldl (fun s _ => s.countFire g.task (t.domainOf g.site)) s

/-- The results of a set go to t0 and then to t1 (R136). -/
def emitted (i : Instr) (g : Firing) (out : Nat → Out) (s : State) : State :=
  s.emitOuts g i.fields.tact g.tag [i.fields.t0, i.fields.t1] ((List.range g.n).map out)

/-- The operand words of word `j`. -/
def opA (i : Instr) (g : Firing) (j : Nat) : Word := (operand i g 0 j).word
def opB (i : Instr) (g : Firing) (j : Nat) : Word := (operand i g 1 j).word
def opC (i : Instr) (g : Firing) (j : Nat) : Word := (operand i g 2 j).word

/-- What a step that fires words of a set leaves when a set may halt between words (R46, R139): from the set's next word on,
as many as fire before anything else happens, each counted in the domain of its site (R467) with the flags that it raises in
its instance (R70), and with its result `out`. When the last word has fired the results leave (R136); a set with words left
keeps its place and what its words have given. -/
def firesWords (i : Instr) (g : Firing) (t : Task) (flags : Nat → BitVec 5) (out : Nat → Out) (s : State) : State :=
  let now := s.wordsNow (g.n - g.fired.length)
  let js := List.range' g.fired.length now.1
  let s1 := js.foldl (fun s j => (s.countFire g.task (t.domainOf g.site)).raiseFlags g.task (g.instAt j) (flags j)) now.2
  let outs := g.fired ++ js.map out
  if g.fired.length + now.1 < g.n then s1.halfFired { g with fired := outs }
  else s1.emitOuts g i.fields.tact g.tag [i.fields.t0, i.fields.t1] outs

/-- What a word computes, for an operation on ports A, B and C that may raise flags: its result in a format and its flags where
it performs, and a NULL word else. -/
def computed (i : Instr) (fmt : BitVec 3) (r : Word → Word → Word → Word × BitVec 5) (g : Firing) (t : Task) (s : State) : State :=
  firesWords i g t (fun j => if performs i g j then (r (opA i g j) (opB i g j) (opC i g j)).2 else 0)
    (fun j => if performs i g j then .data fmt (r (opA i g j) (opB i g j) (opC i g j)).1 else .null) s

/-! ### The integer instructions, as R141 to R150 give them -/

/-- W(v). -/
def W (v : Int) : Word := BitVec.ofInt 32 v

/-- The result of an integer instruction on its operand words. -/
def integerRule : Instr → Option (Word → Word → Word → Word)
  | .add _ => some fun a b _ => a + b
  | .sub _ => some fun a b _ => a - b
  | .adds _ => some fun a b _ => W (max (-2 ^ 31) (min (a.toInt + b.toInt) (2 ^ 31 - 1)))
  | .subs _ => some fun a b _ => W (max (-2 ^ 31) (min (a.toInt - b.toInt) (2 ^ 31 - 1)))
  | .addus _ => some fun a b _ => W (min ((a.toNat : Int) + b.toNat) (2 ^ 32 - 1))
  | .subus _ => some fun a b _ => W (max 0 ((a.toNat : Int) - b.toNat))
  | .mul _ => some fun a b _ => a * b
  | .mulh _ => some fun a b _ => (a.signExtend 64 * b.signExtend 64).extractLsb' 32 32
  | .mulhu _ => some fun a b _ => (a.zeroExtend 64 * b.zeroExtend 64).extractLsb' 32 32
  | .muladd _ => some fun a b c => a * b + c
  | .div _ => some fun a b _ => if b = 0 then 0xFFFFFFFF else if a = 0x80000000 ∧ b = 0xFFFFFFFF then 0x80000000 else a.sdiv b
  | .divu _ => some fun a b _ => if b = 0 then 0xFFFFFFFF else a.udiv b
  | .rem _ => some fun a b _ => if b = 0 then a else if a = 0x80000000 ∧ b = 0xFFFFFFFF then 0 else a.srem b
  | .remu _ => some fun a b _ => if b = 0 then a else a.umod b
  | .and _ => some fun a b _ => a &&& b
  | .or _ => some fun a b _ => a ||| b
  | .xor _ => some fun a b _ => a ^^^ b
  | .andn _ => some fun a b _ => a &&& ~~~b
  | .shl _ => some fun a b _ => a <<< (b &&& 31#32).toNat
  | .shr _ => some fun a b _ => a >>> (b &&& 31#32).toNat
  | .sar _ => some fun a b _ => a.sshiftRight (b &&& 31#32).toNat
  | .rol _ => some fun a b _ => a.rotateLeft (b &&& 31#32).toNat
  | .clz _ => some fun a _ _ => a.clz
  | .ctz _ => some fun a _ _ => a.reverse.clz
  | .popc _ => some fun a _ _ => BitVec.ofNat 32 (((List.range 32).filter fun k => a.getLsbD k).length)
  | .brev _ => some fun a _ _ => a.reverse
  | .min _ => some fun a b _ => if b.slt a then b else a
  | .max _ => some fun a b _ => if a.slt b then b else a
  | .minu _ => some fun a b _ => if b.ult a then b else a
  | .maxu _ => some fun a b _ => if a.ult b then b else a
  | .abs _ => some fun a _ _ => if a.msb then -a else a
  | .neg _ => some fun a _ _ => -a
  | .extb _ => some fun a b _ =>
      let x := (a >>> (8 * (b &&& 3#32).toNat)).setWidth 8
      if b.getLsbD 2 then x.signExtend 32 else x.zeroExtend 32
  | .exth _ => some fun a b _ =>
      let x := (a >>> (16 * (b &&& 1#32).toNat)).setWidth 16
      if b.getLsbD 2 then x.signExtend 32 else x.zeroExtend 32
  | .bfx _ => some fun a b _ =>
      let cut := 31 - ((b >>> 5) &&& 31#32).toNat
      let pos := (b &&& 31#32).toNat
      if b.getLsbD 10 then ((a.sshiftRight pos) <<< cut).sshiftRight cut else ((a >>> pos) <<< cut) >>> cut
  | .bfi _ => some fun a b c =>
      let pos := (b &&& 31#32).toNat
      let m := (0xFFFFFFFF#32 >>> (31 - ((b >>> 5) &&& 31#32).toNat)) <<< pos
      (a &&& ~~~m) ||| ((c <<< pos) &&& m)
  | .teq _ => some fun a b _ => if a = b then 1 else 0
  | .tne _ => some fun a b _ => if a = b then 0 else 1
  | .tlt _ => some fun a b _ => if a.slt b then 1 else 0
  | .tle _ => some fun a b _ => if a.sle b then 1 else 0
  | .tltu _ => some fun a b _ => if a.ult b then 1 else 0
  | .tleu _ => some fun a b _ => if a.ule b then 1 else 0
  | .dot4 _ => some fun a b c =>
      a + (b.extractLsb' 0 8).signExtend 32 * (c.extractLsb' 0 8).signExtend 32 +
        (b.extractLsb' 8 8).signExtend 32 * (c.extractLsb' 8 8).signExtend 32 +
        (b.extractLsb' 16 8).signExtend 32 * (c.extractLsb' 16 8).signExtend 32 +
        (b.extractLsb' 24 8).signExtend 32 * (c.extractLsb' 24 8).signExtend 32
  | _ => none

end Sys2Proof.Claims

/-- Every integer instruction but SEL (R141 to R146, R148 to R150) and DOT4 (R169), with any operands, literals and predicates: each word of
the set that performs leaves the I32 result that its rule gives, any other word a NULL word, and the words are counted
(R134 to R136). A set can halt between words (R139): a step fires one word at least and no more than are left, and the results
leave after the last.
The model's choices it rests on: log entry 5. -/
def Obligations.IntegerResults : Prop :=
  (∀ (i : Instr) (r : Word → Word → Word → Word) (s : State) (g : Firing) (t : Task),
    Claims.integerRule i = some r → Claims.Fires s g t →
    exec i s = .next (Claims.computed i 0 (fun a b c => (r a b c, 0)) g t s)) ∧
  (∀ (s : State) (n : Nat), 0 < n → 0 < (s.wordsNow n).1 ∧ (s.wordsNow n).1 ≤ n)

namespace Sys2Proof.Claims

/-! ### The FP32 instructions -/

/-- The format and the operation of an FP32 instruction (R151 to R158). -/
def floatRule : Instr → Option (BitVec 3 × (Word → Word → Word → Word × BitVec 5))
  | .fadd _ => some (1, fun a b _ => fadd a b)
  | .fsub _ => some (1, fun a b _ => fadd a (if (f32 b).isNaN then b else b ^^^ 0x80000000))
  | .fmul _ => some (1, fun a b _ => fmul a b)
  | .ffma _ => some (1, ffma)
  | .ffms _ => some (1, fun a b c => ffma a b (if (f32 c).isNaN then c else c ^^^ 0x80000000))
  | .fmin _ => some (1, fun a b _ => fmin a b)
  | .fmax _ => some (1, fun a b _ => fmax a b)
  | .fabs _ => some (1, fun a _ _ => (if (f32 a).isNaN then 0x7FC00000 else a &&& 0x7FFFFFFF, 0))
  | .fneg _ => some (1, fun a _ _ => (if (f32 a).isNaN then 0x7FC00000 else a ^^^ 0x80000000, 0))
  | .frnd _ => some (1, fun a b _ => frnd a b)
  | .fdiv _ => some (1, fun a b _ => fdiv a b)
  | .fsqrt _ => some (1, fun a _ _ => fsqrt a)
  | .frcp _ => some (1, fun a _ _ => fdiv 0x3F800000 a)
  | .frsq _ => some (1, fun a _ _ => frsq a)
  | .fexp2 _ => some (1, fun a _ _ => fexp2 a)
  | .flog2 _ => some (1, fun a _ _ => flog2 a)
  | .feq _ => some (0, fun a b _ => feq a b)
  | .flt _ => some (0, fun a b _ => flt a b)
  | .fle _ => some (0, fun a b _ => fle a b)
  | .funo _ => some (0, fun a b _ => (if (f32 a).isNaN ∨ (f32 b).isNaN then 1 else 0,
      if (f32 a).isSignalling ∨ (f32 b).isSignalling then 0x10 else 0))
  | .fclass _ => some (0, fun a _ _ => (fclass a, 0))
  | _ => none

end Sys2Proof.Claims

/-- Every FP32 instruction, with any operands, literals and predicates: each word that performs leaves its result in the
format of R151 and raises its flags in its own instance, and any other word a NULL word (R70, R134 to R137, R151). FSUB and
FFMS are FADD and FFMA of the negated operand, FRCP is the division of 1.
The model's choices it rests on: log entry 5. -/
def Obligations.FloatResults : Prop :=
  ∀ (i : Instr) (fmt : BitVec 3) (r : Word → Word → Word → Word × BitVec 5) (s : State) (g : Firing) (t : Task),
    Claims.floatRule i = some (fmt, r) → Claims.Fires s g t →
    exec i s = .next (Claims.computed i fmt r g t s)

namespace Sys2Proof.Claims

/-! ### Flow -/

/-- What a forwarding instruction leaves for each word that performs (R182, R183, R211, R212). `c` is the context of the
set. -/
def forwardRule (i : Instr) (g : Firing) (t : Task) (c : Context) : Option (Nat → Out) :=
  match i with
  | .mov _ => some fun j => operand i g 0 j
  | .nullTok _ => some fun _ => .null
  | .iterv _ => some fun j => .data 0 (BitVec.ofNat 32 ((g.tag.iter.toNat + j) % 4096))
  | .ctxv _ => some fun _ => .data 0 (BitVec.ofNat 32 g.tag.ctx.toNat)
  | .workid f =>
    let k := (f.lit.extractLsb' 0 3).toNat
    let field := c.wid.toNat / 2 ^ (64 - ((t.tcb.widths.take k).sum + t.tcb.widths.getD k 0)) % 2 ^ t.tcb.widths.getD k 0
    some fun _ => .data 0 (BitVec.ofNat 32 (if f.lit.getLsbD 3 then field / 2 ^ 32 else field))
  | .read f => some fun _ => match c.frame.find? fun x => x.fw == f.fw with
    | some x => .data x.fmt x.word
    | none => .data 0 0
  | _ => none

/-- READ must wait: its block's write mask names the frame word and the instance before its own stands (R196). -/
def readWaits (i : Instr) (s : State) (g : Firing) (t : Task) : Bool :=
  match i with
  | .read f => (List.range g.n).any fun j => s.readWaits t f.fw g j
  | _ => false

/-- The arms of STEER (R185): the word for t0 and the word for t1. -/
def steered (f : StdForm) (g : Firing) (j : Nat) : Out × Out :=
  match operand (.steer f) g 0 j, operand (.steer f) g 2 j with
  | .null, _ | _, .null => (.null, .null)
  | a, c => if c.word = 0 then (.none, a) else (a, .none)

/-- The tag under which an arm of STEER leaves (R185): a pushed bit only when PUSH is 1 and PDEP is below 4. -/
def armTag (f : StdForm) (tag : Tag) (bit : Bool) : Tag :=
  if f.lit.getLsbD 0 ∧ tag.pdep.toNat < 4 then
    { tag with pdep := tag.pdep + 1, path := tag.path ||| (if bit then 1#4 <<< tag.pdep.toNat else 0) }
  else tag

/-- A set of one word that counts for an instance which has not counted it (R54). -/
def CountsFirst (g : Firing) (t : Task) (c : Counted) : Prop :=
  g.n = 1 ∧ ∃ i, t.inst? (g.instAt 0) = some i ∧ i.has c = false

/-- The state after such a set has fired and counted. -/
def countedOnce (s : State) (g : Firing) (t : Task) (c : Counted) : State :=
  (s.countFire g.task (t.domainOf g.site)).count g.task g.src g.tag (g.instAt 0) c

end Sys2Proof.Claims

/-- MOV, NULL, ITERV, CTXV, WORKID and a READ that need not wait (R182, R183, R196, R211, R212): every word that performs
leaves the word of its rule to t0 and then t1, any other a NULL word, and nothing else changes but the counts. READ waits, with no debit, while instance i − 1 stands and the write mask names its frame word (R196): the set goes back
to its place. -/
def Obligations.WordsForwarded : Prop :=
  (∀ (i : Instr) (out : Nat → Out) (s : State) (g : Firing) (t : Task) (c : Context),
     Claims.forwardRule i g t c = some out → Claims.Fires s g t → t.context? g.tag.ctx = some c →
     ((∃ f, i = .mov f) → controlToken g.a = none) → Claims.readWaits i s g t = false →
     exec i s = .next (Claims.emitted i g (fun j => if performs i g j then out j else .null) (Claims.counted s g t))) ∧
  (∀ (f : RwForm) (s : State) (g : Firing) (t : Task) (k : Nat),
     s.cur = some (.firing g, k) → s.task? g.task = some t → Claims.readWaits (.read f) s g t = true →
     exec (.read f) s = .next { s with agenda := s.agenda.take k ++ .firing g :: s.agenda.drop k, cursor := k + 1, cur := none })

/-- MERGE, of whichever port has a token, and PMARK forward their words (R186, R213). PMARK adds one mark for each word that
performs, at the firing. A control token other than NULL at MOV, MERGE or STEER leaves whole, whatever its kind (R182, R185, R286): one token to
t0 and then one to t1, STEER's under the tags of its arms when it forms a set alone. STEER (R185): the words with a nonzero C word go to t0, the others to t1, a NULL word to both, all t0 pieces before any
t1 piece, each arm under its own path, in one output-queue entry (R44). -/
def Obligations.TokensRouted : Prop :=
  ((∀ (f : StdForm) (s : State) (g : Firing) (t : Task), Claims.Fires s g t → g.a.isSome → controlToken g.a = none →
     exec (.merge f) s = .next (Claims.emitted (.merge f) g
       (fun j => if performs (.merge f) g j then operand (.merge f) g 0 j else .null) (Claims.counted s g t))) ∧
   (∀ (f : StdForm) (s : State) (g : Firing) (t : Task), Claims.Fires s g t → g.a = none → controlToken g.b = none →
     exec (.merge f) s = .next (Claims.emitted (.merge f) g
       (fun j => if performs (.merge f) g j then operand (.merge f) g 1 j else .null) (Claims.counted s g t))) ∧
   (∀ (f : StdForm) (s : State) (g : Firing) (t : Task), Claims.Fires s g t → controlToken g.a = none →
     exec (.pmark f) s = .next (Claims.emitted (.pmark f) g
       (fun j => if performs (.pmark f) g j then operand (.pmark f) g 0 j else .null)
       ((List.range g.n).foldl (fun s j =>
         let s1 := s.countFire g.task (t.domainOf g.site)
         if performs (.pmark f) g j then s1.withTask g.task fun t => { t with marks := t.marks + 1 } else s1) s)))) ∧
  (∀ (f : StdForm) (s : State) (g : Firing) (t : Task) (k : Token), Claims.Fires s g t → controlToken g.a = some k →
     (anyNull (.mov f) g 0 = false → predicateFalse (.mov f) g 0 = false → exec (.mov f) s =
       .next ((s.countFire g.task (t.domainOf g.site)).emitControl g f.tact g.tag [f.t0, f.t1] 7 k.words)) ∧
     (anyNull (.merge f) g 0 = false → predicateFalse (.merge f) g 0 = false → exec (.merge f) s =
       .next ((s.countFire g.task (t.domainOf g.site)).emitControl g f.tact g.tag [f.t0, f.t1] 7 k.words)) ∧
     (g.c = none → exec (.steer f) s = .next
       (let s1 := s.countFire g.task (t.domainOf g.site)
        let leaves := fun (s : State) (arm : Bool) (target : BitVec 9) =>
          s.emitPiece g s1.fresh f.tact (Claims.armTag f g.tag arm) target ⟨0, 7, k.words⟩
        leaves (leaves s1.freshen true f.t0) false f.t1))) ∧
  (∀ (f : StdForm) (s : State) (g : Firing) (t : Task), Claims.Fires s g t → controlToken g.a = none → g.b = none → g.p = none →
     exec (.steer f) s = .next
       (let s1 := Claims.counted s g t
        let leaves := fun (s : State) (arm : Bool) (target : BitVec 9) (outs : List Out) =>
          s.emitPieces (Tag.emitter g.tag) g s1.fresh f.tact (Claims.armTag f g.tag arm) [target] outs
        leaves (leaves s1.freshen true f.t0 ((List.range g.n).map fun j => (Claims.steered f g j).1)) false f.t1
          ((List.range g.n).map fun j => (Claims.steered f g j).2)))

/-- WRITE on a word (R195): it counts the frame word, stages the word with its format in its instance, and emits it; a NULL
word counts, stages nothing and emits NULL. The frame itself is unchanged. -/
def Obligations.WriteStagesFrameWord : Prop :=
  ∀ (f : RwForm) (s : State) (g : Firing) (t : Task), Claims.Fires s g t → Claims.CountsFirst g t (.fw f.fw) →
    (∀ fmt w, tokenOut g.a 0 = .data fmt w → exec (.write f) s = .next (Claims.emitted (.write f) g (fun _ => .data fmt w)
      ((Claims.countedOnce s g t (.fw f.fw)).withTask g.task fun t => t.withInst (g.instAt 0) fun i =>
        { i with writes := i.writes ++ [⟨f.fw, w, fmt⟩] }))) ∧
    (tokenOut g.a 0 = .null → exec (.write f) s =
      .next (Claims.emitted (.write f) g (fun _ => .null) (Claims.countedOnce s g t (.fw f.fw))))

/-- LOOPI on a count word, with no live issue in its window (R197, R199): a trip count of zero or less emits NULL to t0 and 1
to t1, any other begins an issue of that many iterations from the instance's own. A word that a live issue covers is its own
continuation and is discarded, and so is a covered word that came alone, its issue over; a word outside a live issue of its
window waits for the end of it. LOOPI_ISSUE (R197, R198), for an issue whose next `n` iterations are the first that are admitted:
words b + j to t0, and to t1 a 1 with the last iteration and 0 before it, in one output-queue entry; the issue is over when every
iteration is issued, and else comes up again.
The model's choices it rests on: log entries 28 and 29. -/
def Obligations.LoopiIssues : Prop :=
  (∀ (f : StdForm) (s : State) (g : Firing) (t : Task), Claims.Fires s g t → g.n = 1 →
     let s1 := s.countFire g.task (t.domainOf g.site)
     let g1 := g.part 0 1
     let live := fun (l : LoopIssue) => l.firing.tag.blk = g.tag.blk ∧ l.firing.tag.ctx = g.tag.ctx
     let alone := (f.lb = false ∧ g.b = none) ∨ (f.pr = true ∧ g.p = none)
     ((∀ l ∈ t.loops, ¬live l) → ¬alone → anyNull (.loopi f) g 0 = false → exec (.loopi f) s = .next
       (let trip := (Claims.opA (.loopi f) g 0).toInt
        let leaves := fun (s : State) (target : BitVec 9) (o : Out) =>
          s.emitPieces (Tag.emitter g1.tag) g1 s1.fresh .keep g1.tag [target] [o]
        if trip ≤ 0 then leaves (leaves s1.freshen f.t0 .null) f.t1 (.data 0 1)
        else (s1.freshen.withTask g.task fun t => { t with loops := t.loops ++
           [⟨s1.fresh, g1, .loopi f, trip.toNat, Claims.opB (.loopi f) g 0, 0, false⟩] }).push (.loopiIssue g.task s1.fresh))) ∧
     ((∃ l ∈ t.loops, live l ∧ (g.tag.iter - l.firing.tag.iter).toNat < l.trip) ∨ alone → exec (.loopi f) s = .next s1) ∧
     (∀ k, s.cur = some (.firing g, k) → ¬alone → (∃ l ∈ t.loops, live l) →
       (∀ l ∈ t.loops, live l → l.trip ≤ (g.tag.iter - l.firing.tag.iter).toNat) → exec (.loopi f) s =
         .next { s with agenda := s.agenda.take k ++ .firing g1 :: s.agenda.drop k, cursor := k + 1, cur := none })) ∧
  (∀ (s : State) (t : Task) (l : LoopIssue) (f : StdForm) (n : Nat) (g : Firing),
     s.task? l.firing.task = some t → t.schedule = false → t.phase = .running → t.frozen = .none →
     t.loops.find? (fun x => x.id == l.id) = some l → l.instr = .loopi f →
     g = { l.firing with tag := { l.firing.tag with iter := l.firing.tag.iter + BitVec.ofNat 12 l.issued } } →
     s.admittedPrefix t g 0 (Nat.min 32 (l.trip - l.issued)) = n → 0 < n → s.outputQueue l.firing.task l.firing.site < 4 →
     exec (.loopiIssue l.firing.task l.id) s = .next
       (let mine := fun (x : LoopIssue) => x.id == l.id
        let issued := fun (x : LoopIssue) => { x with issued := l.issued + n, ended := decide (l.issued + n = l.trip) }
        let s1 := s.withTask l.firing.task fun t => { t with quiet := 0, loops := modifyWhere mine issued t.loops }
        let leaves := fun (s : State) (target : BitVec 9) (outs : List Out) =>
          s.emitPieces (Tag.emitter g.tag) g s1.fresh .keep g.tag [target] outs
        let s2 := leaves (leaves s1.freshen f.t0 ((List.range n).map fun j => .data 0 (l.start + BitVec.ofNat 32 (l.issued + j)))) f.t1
           ((List.range n).map fun j => .data 0 (if l.issued + j + 1 = l.trip then 1 else 0))
        if l.issued + n = l.trip then s2 else s2.push (.loopiIssue l.firing.task l.id)))

/-- EXIT on a word (R189): a continuing exit counts and sends the word at once to the next iteration of its own block; a
leaving exit counts, is held until its instance commits, and squashes the later instances of its window. A NULL word counts
nothing and delivers nothing. BREAK on a word (R200): it emits the word, and a nonzero word squashes the later instances of its window.
The model's choices it rests on: log entry 27. -/
def Obligations.ExitAndBreak : Prop :=
  (∀ (e : BitVec 3) (s : State) (g : Firing) (t : Task) (x : ExitEntry) (fmt : BitVec 3) (w : Word),
     Claims.Fires s g t → Claims.CountsFirst g t .exit → (t.block? g.tag.blk).bind (fun b => b.exits[e.toNat]?) = some x →
     (tokenOut g.a 0 = .data fmt w → x.self = true → x.tact = .inc → exec (.exit e) s = .next
       (let s1 := Claims.countedOnce s g t .exit
        s1.freshen.emitTo g.task g.site s1.fresh (some (Tag.emitter g.tag)) .inc g.tag g.tag.blk 0 0 fmt [w])) ∧
     (tokenOut g.a 0 = .data fmt w → ¬(x.self = true ∧ x.tact = .inc) → exec (.exit e) s = .next
       (((Claims.countedOnce s g t .exit).withTask g.task fun t => t.withInst (g.instAt 0) fun i =>
         { i with held := some (.exit e (.data fmt w) g.tag) }).squashLater g.task g.tag.blk g.tag.ctx g.tag.iter)) ∧
     (tokenOut g.a 0 = .null → exec (.exit e) s = .next (s.countFire g.task (t.domainOf g.site)))) ∧
  (∀ (f : StdForm) (s : State) (g : Firing) (t : Task), Claims.Fires s g t → g.n = 1 → performs (.brk f) g 0 = true →
     exec (.brk f) s = .next (Claims.emitted (.brk f) g (fun j => operand (.brk f) g 0 j)
       (let s1 := s.countFire g.task (t.domainOf g.site)
        if (operand (.brk f) g 0 0).isNull = false ∧ Claims.opA (.brk f) g 0 ≠ 0 then
          s1.squashLater g.task g.tag.blk g.tag.ctx (g.tag.iter + 0) else s1)))

/-- CALL on a word (R202): it asks for the child context of its instance under the callee, whose grant records the return
route and carries the word to instruction 0, port A, of the callee at iteration 0 with an empty path. RET on a word (R203): it
counts as the exit and is held until its instance commits; in a context that no CALL made it takes F_ILL, REASON 0x10. -/
def Obligations.CallAndReturn : Prop :=
  (∀ (f : StdForm) (s : State) (g : Firing) (t : Task) (p : Placed) (fmt : BitVec 3) (w : Word), Claims.Fires s g t → g.n = 1 →
    performs (.call f) g 0 = true → operand (.call f) g 0 0 = .data fmt w → t.placed? g.tag.blk g.tag.inst = some p →
    exec (.call f) s = .next (Claims.emitted (.call f) g (fun _ => .none)
      (let s1 := s.countFire g.task (t.domainOf g.site)
       let from' : Tag := { g.tag with port := 0, fmt := 0, rdir := none }
       let callee := BitVec.ofNat 7 p.callee
       let kid : Tag := ⟨g.tag.ctx, 0, 0, 0, fmt, callee, 0, 0, none⟩
       s1.freshen.push (.contextGrant ⟨g.task, from', callee, some ⟨from', f.t0, f.t1⟩,
         [⟨g.task, g.site, t.siteOf callee 0 0, s1.fresh, ⟨kid, [w]⟩, none, some (Tag.soleEmitter g.tag)⟩], false⟩)))) ∧
  (∀ (f : StdForm) (s : State) (g : Firing) (t : Task) (c : Context), Claims.Fires s g t → performs (.ret f) g 0 = true →
    t.context? g.tag.ctx = some c →
    (c.route.isSome → Claims.CountsFirst g t .exit → exec (.ret f) s = .next
      ((Claims.countedOnce s g t .exit).withTask g.task fun t => t.withInst (g.instAt 0) fun i =>
        { i with held := some (.ret (operand (.ret f) g 0 0)) })) ∧
    (c.route = none → g.n = 1 → exec (.ret f) s = .next
      ((s.countFire g.task (t.domainOf g.site)).raiseIll g.task g.src g.tag 0x10)))

/-- COMB on a word of its operation's format, with nothing of its iteration spilled (R215, R216): the first word becomes the
accumulation, which takes a place at the element where one is open; a later word is combined; the last of the CNTM1 + 1
arrivals emits the accumulation and frees it. -/
def Obligations.CombAccumulates : Prop :=
  ∀ (f : StdForm) (s : State) (g : Firing) (t : Task) (k : Token) (w : Word), Claims.Fires s g t → g.n = 1 → g.a = some k →
    k.tag.fmt = combFmt (combOp f.lit) → k.words = [w] → (∀ a ∈ t.accums, a.slot = none ∧ a.run < s.fresh) →
    (∀ a, t.accums.find? (sameAccum g g.tag.iter) = none → a = (⟨g.site, g.tag, g.tag.iter, some ⟨0, k.tag.fmt, w⟩, 1, s.fresh, none⟩ : Accum) →
      combCount f.lit ≠ 1 →
      ({ t with quiet := 0, accums := t.accums ++ [a] }).openTo (s.setsOf g.task) g.site g.tag.ctx 0 0 = true →
      exec (.comb f) s = .next (Claims.emitted (.comb f) g (fun _ => .none)
        ((s.freshen.countFire g.task (t.domainOf g.site)).withTask g.task fun t => { t with accums := t.accums ++ [a] }))) ∧
    (∀ (a : Accum) (x : Gathered), t.accums.find? (sameAccum g g.tag.iter) = some a → a.acc = some x → a.count + 1 ≠ combCount f.lit →
      exec (.comb f) s = .next (Claims.emitted (.comb f) g (fun _ => .none)
        (((s.freshen.countFire g.task (t.domainOf g.site)).raiseFlags g.task (g.instAt 0) (combWords (combOp f.lit) x.word w).1.2).withTask
          g.task fun t => { t with accums := (modifyWhere (sameAccum g g.tag.iter)
              (fun _ => { a with acc := some { x with word := (combWords (combOp f.lit) x.word w).1.1 }, count := a.count + 1 }) t.accums) }))) ∧
    (∀ (a : Accum) (x : Gathered), t.accums.find? (sameAccum g g.tag.iter) = some a → a.acc = some x → a.count + 1 = combCount f.lit →
      exec (.comb f) s = .next (Claims.emitted (.comb f) g (fun _ => .data x.fmt (combWords (combOp f.lit) x.word w).1.1)
        (((s.freshen.countFire g.task (t.domainOf g.site)).raiseFlags g.task (g.instAt 0) (combWords (combOp f.lit) x.word w).1.2).withTask
          g.task fun t => { t with accums := t.accums.filter fun b => !sameAccum g g.tag.iter b })))

namespace Sys2Proof.Claims

/-! ### Vector and format instructions -/

/-- Lane `k` of a packed word, as a value. -/
def laneOf (fmt : BitVec 3) (w : Word) (k : Nat) : FVal := (laneFmt fmt).decode ((w >>> (16 * k)).setWidth 16).toNat

/-- Two lanes, each rounded once to the lane format (R169), and their flags together. -/
def lanes (fmt : BitVec 3) (r : Nat → FVal × BitVec 5) : Word × BitVec 5 :=
  let l := fun k => (laneFmt fmt).deliver .rne false (r k)
  (BitVec.ofNat 32 (l 0).1 + BitVec.ofNat 32 (2 ^ 16 * (l 1).1), (l 0).2 ||| (l 1).2)

/-- The packed ports of a packed instruction, the format of its result, and its rule (R159, R169), for a set whose packed
tokens have the format `fmt`. -/
def packedRule (fmt : BitVec 3) : Instr → Option (List (BitVec 2) × BitVec 3 × (Word → Word → Word → Word × BitVec 5))
  | .padd2 _ => some ([0, 1], fmt, fun a b _ => lanes fmt fun k => (laneOf fmt a k).add (laneOf fmt b k))
  | .pmul2 _ => some ([0, 1], fmt, fun a b _ => lanes fmt fun k => (laneOf fmt a k).mul (laneOf fmt b k))
  | .pfma2 _ => some ([0, 1, 2], fmt, fun a b c => lanes fmt fun k => (laneOf fmt a k).fma (laneOf fmt b k) (laneOf fmt c k))
  | .dot2 _ => some ([1, 2], 1, fun a b c =>
      let p := (laneOf fmt b 0).mul (laneOf fmt c 0)
      let q := (laneOf fmt b 1).mul (laneOf fmt c 1)
      let pq := p.1.add q.1
      let r := (f32 a).add pq.1
      finish32 (r.1, p.2 ||| q.2 ||| pq.2 ||| r.2))
  | _ => none

/-- HDRT's rule (R177). -/
def hdrtRule (a b : Word) : Word × BitVec 5 :=
  let scale : Int := (a &&& 0xFF#32).toNat
  let e := scale + b.toInt
  if scale = 255 then (a, 0)
  else ((a &&& 0xFFFFFF00#32) ||| BitVec.ofInt 32 (max 0 (min e 254)), if 254 < e then 0b00101 else if e < 0 then 0b00011 else 0)

/-- The common format of SEL's tokens: a NULL token suits any. -/
def SelFormat (f : StdForm) (g : Firing) (fmt : BitVec 3) : Prop :=
  (∀ k, g.a = some k → f.la = false → k.tag.fmt = fmt ∨ k.tag.fmt = 7) ∧
  (∀ k, g.b = some k → f.lb = false → k.tag.fmt = fmt ∨ k.tag.fmt = 7) ∧
  ((∃ k, g.a = some k ∧ f.la = false ∧ k.tag.fmt = fmt) ∨ (∃ k, g.b = some k ∧ f.lb = false ∧ k.tag.fmt = fmt) ∨
    ∀ j < g.n, performs (.sel f) g j = false)

/-- The word that a gathered window holds at its iteration `k`. -/
def received (win : List Gathered) (k : Nat) : Out :=
  match win.find? fun w => w.off == k with
  | some w => if w.fmt = 7 then .null else .data w.fmt w.word
  | none => .none

/-- `n` words of a set's site debit and are counted. -/
def countedTimes (s : State) (g : Firing) (t : Task) (n : Nat) : State :=
  (List.range n).foldl (fun s _ => s.countFire g.task (t.domainOf g.site)) s

/-- Stretches that follow one another from place `p`, none of them empty. -/
def Placed : Nat → List (Nat × List Out) → Prop
  | _, [] => True
  | p, c :: cs => c.1 = p ∧ c.2 ≠ [] ∧ Placed (p + c.2.length) cs

/-- The iteration at place `p` of a set is a multiple of 2^L (R164). -/
def boundary (f : StdForm) (g : Firing) (p : Nat) : Prop := (g.tag.iter + BitVec.ofNat 12 p).toNat % 2 ^ litL f.lit = 0

/-- A gathered window leaves under its base: its words, each counted, to t0 and t1 as the pieces of R136. -/
def window (f : StdForm) (g : Firing) (t : Task) (base : BitVec 12) (outs : List Out) (s : State) : State :=
  (countedTimes s g t (outs.filter fun o => o != .none).length).emitOuts g f.tact { g.tag with iter := base } [f.t0, f.t1] outs

end Sys2Proof.Claims

/-- PADD2, PMUL2, PFMA2 and DOT2 on packed tokens of one format (R161, R169): each lane by its own rule, rounded once. SEL (R147): `a` where c is nonzero and `b` where it is zero, in the common format of its A and B tokens; A and B tokens of
two formats fault the task with F_FMT.
The model's choices it rests on: log entries 5 and 129. -/
def Obligations.PackedAndSelected : Prop :=
  (∀ (i : Instr) (fmt res : BitVec 3) (ports : List (BitVec 2)) (r : Word → Word → Word → Word × BitVec 5) (s : State) (g : Firing)
     (t : Task), Claims.packedRule fmt i = some (ports, res, r) → Claims.Fires s g t →
     (packedTokens i g ports ≠ [] ∨ ∀ j < g.n, performs i g j = false) → (∀ k ∈ packedTokens i g ports, k.tag.fmt = fmt) → exec i s = .next (Claims.computed i res r g t s)) ∧
  (∀ (f : StdForm) (s : State) (g : Firing) (t : Task), Claims.Fires s g t →
     (∀ fmt, Claims.SelFormat f g fmt → fmt ≠ 7 → exec (.sel f) s =
       .next (Claims.computed (.sel f) fmt (fun a b c => (if c = 0 then b else a, 0)) g t s)) ∧
     (∀ ka kb, f.la = false → f.lb = false → g.a = some ka → g.b = some kb → ka.tag.fmt ≠ 7 → kb.tag.fmt ≠ 7 → ka.tag.fmt ≠ kb.tag.fmt →
       exec (.sel f) s = .next (s.raiseFmt g.task g.src ka 0x04 (ka.words.headD 0))))

/-- CVT under a literal of R171, on words that were not detoured, and HDRT (R171, R177): each word converts by its pair, in the
format DFMT; HDRT moves SCALE by S(b), held within 0 to 0xFE, and leaves the rest of the header. CVT from F32 to I32 (R172): the value rounded in the FORM's mode, held at the ends of the range with NV, and a NaN as zero
with NV; only an inexact result within the range raises NX.
The model's choices it rests on: log entry 5. -/
def Obligations.Conversions : Prop :=
  ((∀ (f : StdForm) (s : State) (g : Firing) (t : Task), Claims.Fires s g t → cvtLitOk f.lit = true →
     (g.a.bind fun k => k.tag.rdir) = none → exec (.cvt f) s = .next
       (Claims.computed (.cvt f) (f.lit.extractLsb' 8 3)
         (fun a _ _ => cvtWord f.lit ((s.hoop t.hoop).codebooks.getD ((f.lit >>> 16) &&& 15#32).toNat []) g.scale a) g t s)) ∧
   (∀ (f : StdForm) (s : State) (g : Firing) (t : Task), Claims.Fires s g t →
     exec (.hdrt f) s = .next (Claims.computed (.hdrt f) 6 (fun a b _ => Claims.hdrtRule a b) g t s))) ∧
  (∀ (lit : Word) (cb : List (BitVec 16)) (scale : BitVec 8) (w : Word), cvtSfmt lit = 1 → cvtDfmt lit = 0 →
     (∀ s, f32 w = .nan s → cvtWord lit cb scale w = (0, 0b10000)) ∧
     (∀ s, f32 w = .inf s → cvtWord lit cb scale w = (if s then 0x80000000 else 0x7FFFFFFF, 0b10000)) ∧
     (∀ s m e n inexact, f32 w = .fin s m e → roundAt (modeOf (cvtForm lit)) s m e 0 = (n, inexact) →
       let v : Int := if s then -(n : Int) else n
       cvtWord lit cb scale w =
         if v < -2 ^ 31 ∨ 2 ^ 31 - 1 < v then (if s then 0x80000000 else 0x7FFFFFFF, 0b10000)
         else (Claims.W v, if inexact then 0b00001 else 0)))

/-- SPLIT (R164): its words leave unchanged, in stretches that begin at the set's own iteration and at every iteration that is
a multiple of 2^L, each as the pieces of R136. JOIN and REORD on a complete window (R166, R167): JOIN emits its words in order, REORD the transpose: the word received at
row × Q + col leaves at col × P + row. An EOS or BARRIER token at JOIN or REORD (R163, R166, R167): the incomplete windows of its context and path leave in
ascending order of base, JOIN's as the iterations they hold, REORD's with NULL words for those they lack, and then the control
token goes to t0 and t1. The words are those that came before the control token; they leave the matching store, and a spilled
one its presence counts.
The model's choices it rests on: log entries 15 and 23. -/
def Obligations.WindowsGatherAndSplit : Prop :=
  (∀ (f : StdForm) (s : State) (g : Firing) (t : Task), Claims.Fires s g t →
     ∃ cuts : List (Nat × List Out),
       cuts.flatMap (fun c => c.2) =
         (List.range g.n).map (fun j => if performs (.split f) g j then operand (.split f) g 0 j else .null) ∧
       Claims.Placed 0 cuts ∧
       (∀ c ∈ cuts, (c.1 = 0 ∨ Claims.boundary f g c.1) ∧ ∀ q, c.1 < q → q < c.1 + c.2.length → ¬Claims.boundary f g q) ∧
       exec (.split f) s = .next
         (let s1 := Claims.counted s g t
          (cuts.flatMap fun c => pieces c.1 c.2).foldl
            (fun s p => [f.t0, f.t1].foldl (fun s t => s.emitPiece g s1.fresh f.tact g.tag t p) s) s1.freshen)) ∧
  (∀ (f : StdForm) (s : State) (g : Firing) (t : Task), Claims.Fires s g t → controlToken g.a = none →
     ((∀ k < 2 ^ litL f.lit, Claims.received g.win k ≠ .none) →
       exec (.join f) s = .next (Claims.window f g t g.tag.iter ((List.range (2 ^ litL f.lit)).map (Claims.received g.win)) s)) ∧
     ((∀ k < 2 ^ litLP f.lit * 2 ^ litLQ f.lit, Claims.received g.win k ≠ .none) → ∃ outs : List Out,
       outs.length = 2 ^ litLP f.lit * 2 ^ litLQ f.lit ∧
       (∀ row < 2 ^ litLP f.lit, ∀ col < 2 ^ litLQ f.lit,
         outs[col * 2 ^ litLP f.lit + row]? = some (Claims.received g.win (row * 2 ^ litLQ f.lit + col))) ∧
       exec (.reord f) s = .next (Claims.window f g t g.tag.iter outs s))) ∧
  (∀ (f : StdForm) (s : State) (g : Firing) (t : Task) (k : Token), Claims.Fires s g t → controlToken g.a = some k →
     let taken := s.withTask g.task fun u => u.settleSpill { u with waiting := u.waiting.filter fun w => !(t.heldFor g).contains w }
     let control := fun (s : State) => s.emitControl g f.tact g.tag [f.t0, f.t1] 7 k.words
     (exec (.join f) s = .next (control ((t.heldWindows g (2 ^ litL f.lit)).foldl
       (fun s w => Claims.window f g t w.1 ((List.range (2 ^ litL f.lit)).map (Claims.received w.2)) s) taken))) ∧
     (exec (.reord f) s = .next (control ((t.heldWindows g (2 ^ (litLP f.lit + litLQ f.lit))).foldl
       (fun s w => Claims.window f g t w.1 (reordOuts (litLP f.lit) (litLQ f.lit) w.2) s) taken))))

/-- QSEND on a complete block of fewer than 64 words (R178, R179): each of its words debits P; a block
with no NULL word leaves as its header, of RUN 1, and its codes, of RUN W, each to t0 and then t1 at ITER base div c, with its
flags in its first instance; a block with one leaves as a NULL run of W.
The model's choices it rests on: log entry 22. -/
def Obligations.QsendQuantisesBlock : Prop :=
  ∀ (f : StdForm) (s : State) (g : Firing) (t : Task), Claims.Fires s g t → controlToken g.a = none →
    let c := if qsendEfmt f.lit = 4 then 8 else 4
    let w := 2 ^ qsendLw f.lit
    (∀ k < c * w, Claims.received g.win k ≠ .none) → c * w < 64 →
    let outs := (List.range (c * w)).map (Claims.received g.win)
    let xs := outs.map fun o => f32 o.word
    let q := if qsendEfmt f.lit = 4 then quantC4 ((s.hoop t.hoop).codebooks.getD (qsendCb f.lit) []) xs else quantI8 xs
    let tag : Tag := { g.tag with iter := BitVec.ofNat 12 (g.tag.iter.toNat / c) }
    let s1 := Claims.countedTimes s g t (c * w)
    let send := fun (s : State) (p : Piece) =>
      [f.t0, f.t1].foldl (fun s t => s.emitPieceBy (Tag.soleEmitter g.tag) g s1.fresh f.tact tag t p) s
    exec (.qsend f) s = .next
      (if outs.any Out.isNull then send s1.freshen ⟨0, 7, List.replicate w nullWord⟩
       else send (send (s1.freshen.raiseFlags g.task (g.instAt 0) q.flags)
        ⟨0, 6, [headerWord (qsendEfmt f.lit) true (w - 1) q.scale]⟩)
        ⟨0, BitVec.ofNat 3 (qsendEfmt f.lit), codeWords c (32 / c) w q.codes⟩)

namespace Sys2Proof.Claims

/-! ### S-form and X-form instructions -/

/-- An operation of one word that has not left its site. -/
def oneWord : List OpWord := [⟨.waiting, 0, [], [], 0, [], 0, false, 0⟩]

/-- The operation that a set opens, its one word counted at its site. -/
def began (i : Instr) (s : State) (g : Firing) (t : Task) : State :=
  (s.withTask g.task fun u => { u with ops := u.ops ++ [⟨t.nextOp, g, i, oneWord⟩], nextOp := t.nextOp + 1 }).countFire
    g.task (t.domainOf g.site)

/-- A set of a running task in store mode opens an operation under a new number. -/
def Opens (s : State) (g : Firing) (t : Task) : Prop :=
  Fires s g t ∧ t.phase = .running ∧ ∀ o ∈ t.ops, o.id < t.nextOp

/-- A set of one word performs in its instance's order (R134, R229, R230). `s1` is the state in which its operation is open. -/
def Begins (i : Instr) (s : State) (g : Firing) (t : Task) (s1 : State) : Prop :=
  Opens s g t ∧ g.n = 1 ∧ performs i g 0 = true ∧ s1 = began i s g t ∧
    s1.orderReady t (g.instAt 0) i.fields.lsid (loadLike i) = true

/-- Word `j` of a set passes the checks of R223 at `pa`, under a key, and no copy to or from its scratchpad line holds it. -/
def Passes (i : Instr) (s1 : State) (g : Firing) (t : Task) (j pa : Nat) (key : BitVec 12) : Prop :=
  s1.checkAccess t (tileOf g.site) (segTypes i) (accessOf i g j) = .ok pa key ∧
    (scoreboarded i = true → s1.rangeHolds pa (accessOf i g j).size = false)

/-- The line request that a word makes after its checks, and that its set debits once for each distinct line (R225): 1 for one
that goes to memory, 2 for one that staging serves. -/
def lineAsked (i : Instr) (g : Firing) (t : Task) (j pa : Nat) : Option Nat :=
  match i with
  | .ld _ _ _ | .ldv _ _ | .sopenRead _ _ | .sopenWrite _ _ | .sindRead _ _ | .sindWrite _ _ =>
    some (if t.servedByStaging (some (g.instAt j, i.fields.lsid)) pa (accessOf i g j).size then 2 else 1)
  | .iread _ | .iwrite _ => some 1
  | _ => none

/-- Word `j` of an operation goes on at a stage with its physical address and the line request it has made, taken up by an
event. -/
def goesOn (s1 : State) (id op j : Nat) (st : OpStage) (pa : Nat) (asked : Option Nat) (e : Instr) : State :=
  (s1.withOpWord id op j fun w => { w with stage := st, pa := pa, asked := asked.getD w.asked }).push e

/-- Where a word goes after its checks: its request leaves, or waits for a stream engine or for its window base (R237, R241,
R257, R260, R261, R267). -/
def afterChecks (i : Instr) (id op j : Nat) : Option (OpStage × Instr) :=
  match i with
  | .ld _ _ _ | .ldv _ _ => some (.sent, .readComplete id op j)
  | .iread _ | .iwrite _ => some (.sent, .structRequest id op j)
  | .sopenRead _ _ | .sopenWrite _ _ | .sindRead _ _ | .sindWrite _ _ => some (.ready, .streamEngineAcquire id op j)
  | .aadd f | .afadd f | .amin f | .amax f | .aminu f | .amaxu f | .aand f | .aor f | .axor f | .aswap f | .acas f | .afmin f | .afmax f =>
    if f.t0 = noTarget then none else some (.ready, .atOnceRelease id op j)
  | .lock _ | .qput _ | .qget _ | .atomsc _ _ => some (.ready, .atOnceRelease id op j)
  | _ => none

/-- The B and C operands of a compare and swap have one format (R267). -/
def SameFormat (i : Instr) (g : Firing) : Prop :=
  ∀ c, g.c = some c → c.tag.fmt = 7 ∨ (match g.b with
    | some b => b.tag.fmt = 7 ∨ b.tag.fmt = c.tag.fmt
    | none => c.tag.fmt = (operand i g 1 0).fmt)

/-- An operation that compares and swaps. -/
def swaps : Instr → Bool
  | .acas _ | .atomsc _ .acas => true
  | _ => false

/-- A bank operation (R267). -/
def bankRule : Instr → Option (SForm × BankOp)
  | .aadd f => some (f, .aadd)
  | .afadd f => some (f, .afadd)
  | .amin f => some (f, .amin)
  | .amax f => some (f, .amax)
  | .aminu f => some (f, .aminu)
  | .amaxu f => some (f, .amaxu)
  | .aand f => some (f, .aand)
  | .aor f => some (f, .aor)
  | .axor f => some (f, .axor)
  | .aswap f => some (f, .aswap)
  | .acas f => some (f, .acas)
  | .afmin f => some (f, .afmin)
  | .afmax f => some (f, .afmax)
  | _ => none

/-- A word stages: its instance has not counted its LSID, and its quadrant's staging buffer has an entry for it (R234, R268). -/
def Stages (i : Instr) (g : Firing) (t : Task) : Prop :=
  (∃ x, t.inst? (g.instAt 0) = some x ∧ x.has (.lsid i.fields.lsid) = false) ∧ t.stagingUsed (t.stageQuad g.site) < 2048

/-- What a staged word leaves behind: its LSID is counted for its instance, and it finishes with the words `outs`. -/
def stagedAnd (i : Instr) (s2 : State) (g : Firing) (t : Task) (outs : List Out) : State :=
  (s2.count g.task g.src g.tag (g.instAt 0) (.lsid i.fields.lsid)).finishWord g.task t.nextOp 0 outs

end Sys2Proof.Claims

/-- Every S-form instruction whose request leaves its tile or waits for its window base, on one word that passes its checks
(R223, R237, R241, R257, R260, R261, R267): the word is taken up at its physical address, and nothing else has changed but the
task's outstanding operations, the counts and, for a write stream, its LSID (R243). -/
def Obligations.RequestsIssue : Prop :=
  (∀ (i : Instr) (s s1 : State) (g : Firing) (t : Task) (pa : Nat) (key : BitVec 12) (st : OpStage) (e : Instr),
    (∀ f, i ≠ .qput f) → countsAtFiring i = false → Claims.Begins i s g t s1 → Claims.Passes i s1 g t 0 pa key →
    (Claims.swaps i = true → Claims.SameFormat i g) → Claims.afterChecks i g.task t.nextOp 0 = some (st, e) →
    exec i s = .next (Claims.goesOn s1 g.task t.nextOp 0 st pa (Claims.lineAsked i g t 0 pa) e)) ∧
  (∀ (i : Instr) (s s1 : State) (g : Firing) (t : Task) (pa : Nat) (key : BitVec 12),
    countsAtFiring i = true → Claims.Opens s g t → g.n = 1 → performs i g 0 = true →
    (∃ x, t.inst? (g.instAt 0) = some x ∧ x.has (.lsid i.fields.lsid) = false) →
    s1 = (Claims.began i s g t).count g.task g.src g.tag (g.instAt 0) (.lsid i.fields.lsid) →
    s1.orderReady t (g.instAt 0) i.fields.lsid true = true → Claims.Passes i s1 g t 0 pa key →
    exec i s = .next (Claims.goesOn s1 g.task t.nextOp 0 .ready pa (Claims.lineAsked i g t 0 pa) (.streamEngineAcquire g.task t.nextOp 0))) ∧
  (∀ (f : SForm) (s s1 : State) (g : Firing) (t : Task), Claims.Begins (.unlock f) s g t s1 →
    exec (.unlock f) s = .next ((s1.withOpWord g.task t.nextOp 0 fun w => { w with stage := .ready }).push
      (.atOnceRelease g.task t.nextOp 0)))

/-- QPUT on a complete window of its entry (R279): with no NULL word it waits for its window base as one request at its control
line; with one it counts its LSID for every instance of the window and emits one NULL word at the window's index.
The model's choices it rests on: log entry 42. -/
def Obligations.QputTakesWindow : Prop :=
  ∀ (f : SForm) (s s1 : State) (g : Firing) (t : Task), Claims.Opens s g t → s1 = Claims.began (.qput f) s g t →
    let hasNull := (List.range (2 ^ queueLe f.lit)).any (fun j => (operand (.qput f) g 0 j).isNull) || g.win.any fun w => w.fmt == 7
    (∀ pa key, hasNull = false → s1.orderReady t (g.instAt 0) f.lsid false = true → Claims.Passes (.qput f) s1 g t 0 pa key →
      exec (.qput f) s = .next (Claims.goesOn s1 g.task t.nextOp 0 .ready pa none (.atOnceRelease g.task t.nextOp 0))) ∧
    (hasNull = true → (∀ k < 2 ^ queueLe f.lit, ∃ x, t.inst? (g.instAt k) = some x ∧ x.has (.lsid f.lsid) = false) →
      exec (.qput f) s = .next (((List.range (2 ^ queueLe f.lit)).foldl
        (fun s k => s.count g.task g.src g.tag (g.instAt k) (.lsid f.lsid)) s1).finishWord g.task t.nextOp 0 [.null]))

/-- ST and STV stage their bytes in their instance, at the physical address of the store, and emit the word; ICLEAR and every
bank operation that names no target stage the operation on the word, ICLEAR emitting its address word and a bank operation
nothing (R233, R234, R237, R263, R267, R268). Memory is unchanged until the task commits. -/
def Obligations.StoresStage : Prop :=
  (∀ (i : Instr) (n : Nat) (s s1 : State) (g : Firing) (t : Task) (pa : Nat) (key : BitVec 12),
    ((∃ f w, i = .st f w ∧ n = w.bytes) ∨ (∃ f fmt, i = .stv f fmt ∧ n = 4)) → Claims.Begins i s g t s1 →
    Claims.Passes i s1 g t 0 pa key → Claims.Stages i g t →
    exec i s = .next (Claims.stagedAnd i (s1.withTask g.task fun u => { u with staged := u.staged ++
      [⟨t.stageQuad g.site, .inst (g.instAt 0), i.fields.lsid, pa, bytesOfNat (Claims.opB i g 0).toNat n, key⟩] }) g t [operand i g 1 0])) ∧
  (∀ (i : Instr) (what : StagedWhat) (outs : List Out) (s s1 : State) (g : Firing) (t : Task) (pa : Nat) (key : BitVec 12),
    ((∃ f, i = .iclear f ∧ what = .clear ∧ outs = [operand i g 0 0]) ∨
     (∃ f op, Claims.bankRule i = some (f, op) ∧ f.t0 = noTarget ∧ what = .atomic op (Claims.opB i g 0) (Claims.opC i g 0) ∧ outs = [] ∧
       (Claims.swaps i = true → Claims.SameFormat i g))) →
    Claims.Begins i s g t s1 → Claims.Passes i s1 g t 0 pa key → Claims.Stages i g t →
    exec i s = .next (Claims.stagedAnd i (s1.withTask g.task fun u => { u with stagedOps := u.stagedOps ++
      [⟨t.stageQuad g.site, g.instAt 0, i.fields.lsid, pa - pa % 4, what, none⟩] }) g t outs))

/-- The at-once instructions of the system family wait for their window base (R257), and TOPUP's request leaves for the pool
(R369). What the other instructions of the charge and system families answer (R329, R330, R333, R372 to R374): TIME the tick,
RESUMEV the words the task started with, METER what is left of the account, the budget, the allowance and the marks, NEXTW
whether an identifier is left, LEAVE the word that passes once its leave is granted, and LAUNCH its B word, recording the line
in its instance. -/
def Obligations.SystemWordsBegin : Prop :=
  (∀ (i : Instr) (s : State) (g : Firing) (t : Task), Claims.Opens s g t → g.n = 1 → performs i g 0 = true →
     ((∃ f, i = .grant f ∨ i = .tack f ∨ i = .trap f ∨ i = .srd f ∨ i = .swr f ∨ i = .freeze f ∨ i = .thaw f ∨ i = .preempt f) →
       exec i s = .next (((Claims.began i s g t).withOpWord g.task t.nextOp 0 fun w => { w with stage := .ready }).push
         (.atOnceRelease g.task t.nextOp 0))) ∧
     ((∃ f, i = .topup f) →
       exec i s = .next (((Claims.began i s g t).withOpWord g.task t.nextOp 0 fun w => { w with stage := .sent }).push
         (.topupPoolServe g.task t.nextOp 0)))) ∧
  (∀ (s : State) (g : Firing) (t : Task), Claims.Opens s g t → g.n = 1 →
     let answers := fun (i : Instr) (outs : List Out) =>
       exec i s = .next ((Claims.began i s g t).finishWord g.task t.nextOp 0 outs)
     (∀ f, performs (.time f) g 0 = true →
       answers (.time f) [.data 0 (s.time.extractLsb' 0 32), .data 0 (s.time.extractLsb' 32 32)]) ∧
     (∀ f, performs (.resumev f) g 0 = true → answers (.resumev f) [.data 0 t.resumeIn, .data 0 t.tacksIn]) ∧
     (∀ f, performs (.meter f) g 0 = true →
       (Claims.opA (.meter f) g 0 = 0x70 → answers (.meter f) [.data 0 (BitVec.ofNat 32 (min (t.account / 2 ^ t.tcb.px) 0xFFFFFFFF))]) ∧
       (Claims.opA (.meter f) g 0 = 0x71 → answers (.meter f) [.data 0 (BitVec.ofNat 32 (min t.packets 0xFFFFFFFF))]) ∧
       (Claims.opA (.meter f) g 0 = 0x72 → answers (.meter f) [.data 0 (BitVec.ofNat 32 (min (t.allow - t.granted) 0xFFFFFFFF))]) ∧
       (Claims.opA (.meter f) g 0 = 0x73 → answers (.meter f) [.data 0 (BitVec.ofNat 32 (min t.marks 0xFFFFFFFF))])) ∧
     (∀ f, performs (.nextw f) g 0 = true → t.tcb.sched = 0 →
       answers (.nextw f) [.data 0 (if t.entryNext = 0 then 1 else 0)]) ∧
     (∀ f d, performs (.leave f) g 0 = true → leaveCtlOk (Claims.opA (.leave f) g 0) = true →
       t.domainNamed (leaveDom (Claims.opA (.leave f) g 0)) = some d → exec (.leave f) s = .next
         (((Claims.began (.leave f) s g t).withOpWord g.task t.nextOp 0 fun w => { w with stage := .queued }).askLeave t.hoop d
           ⟨g.task, t.nextOp, 0, t.tower⟩ (leaveAmt (Claims.opA (.leave f) g 0)))) ∧
     (∀ f pa key, performs (.launch f) g 0 = true → (Claims.opB (.launch f) g 0).toNat % 64 = 0 →
       Claims.Passes (.launch f) (Claims.began (.launch f) s g t) g t 0 pa key → exec (.launch f) s = .next
         (((Claims.began (.launch f) s g t).withTask g.task fun u => u.withInst (g.instAt 0) fun x =>
           { x with launches := x.launches ++ [pa] }).finishWord g.task t.nextOp 0 [operand (.launch f) g 1 0])))

namespace Sys2Proof.Claims

/-! ### The events of an access -/

/-- Word `j` of an operation of a task that goes on is at a stage, and its instance stands. -/
def At (s : State) (id op j : Nat) (st : OpStage) (t : Task) (o : OpRec) : Prop :=
  s.op? id op = some (t, o) ∧ (o.at j).stage = st ∧ (o.at j).dropped = false ∧ t.frozen = .none ∧ t.phase = .running ∧ t.schedule = false ∧
    t.id = id ∧ o.id = op ∧ o.firing.task = id

/-- The new word and the flags of a bank operation (R267). -/
def bankNew (op : BankOp) (old b c : Word) : Word × BitVec 5 :=
  match op with
  | .aadd => (old + b, 0)
  | .afadd => if (f32 old).isNaN ∨ (f32 b).isNaN then (0x7FC00000, 0b10000) else fadd old b
  | .amin => (if b.slt old then b else old, 0)
  | .amax => (if old.slt b then b else old, 0)
  | .aminu => (if b.ult old then b else old, 0)
  | .amaxu => (if old.ult b then b else old, 0)
  | .aand => (old &&& b, 0)
  | .aor => (old ||| b, 0)
  | .axor => (old ^^^ b, 0)
  | .aswap => (b, 0)
  | .acas => (if old = c then b else old, 0)
  | .afmin => fmin old b
  | .afmax => fmax old b

/-- One word of memory takes a value, and every other byte stays. -/
def Stored (s s' : State) (a : Nat) (w : Word) : Prop :=
  s'.mem.readWord a = w ∧ ∀ b, b < a ∨ a + 4 ≤ b → s'.mem.read b = s.mem.read b

/-- The structure words that are not empty are listed in rising order of address. -/
def WordsRise (s : State) : Prop := s.words.Pairwise fun x y => x.addr < y.addr

/-- A plain write performs at a word (R264, R431): it is not deferred or provisional, and its line's code is good. -/
def Writable (s : State) (a : Nat) (key : BitVec 12) : Prop := s.wordRefusesWrite a = false ∧ s.lineGood a key = true

end Sys2Proof.Claims

/-- READ_COMPLETE (R96, R231, R237): LD and LDV finish with the bytes their read sees, little-endian, LD's extended by its
form; a line whose code does not match faults the task with F_CHECK (R431). SCOREBOARD_WAIT_END lets a load that waited for a
copy or stream leave (R250). What a read of a task sees at a byte (R231): the newest write that its own instance staged under an LSID below its own, then
the task's latest committed staged write, then memory. -/
def Obligations.ReadsComplete : Prop :=
  (∀ (s : State) (id op j : Nat) (t : Task) (o : OpRec),
     let a := accessOf o.instr o.firing j
     let pa := (o.at j).pa
     let own := some (o.firing.instAt j, o.instr.fields.lsid)
     let key := if (t.segment a.seg).typ = 3 then 0 else (t.segment a.seg).key
     let v := natOfBytes (s.readVisible t own pa a.size)
     (Claims.At s id op j .sent t o → (t.servedByStaging own pa a.size = true ∨ s.lineGood pa key = true) →
       (∀ f w, o.instr = .ld f w false → exec (.readComplete id op j) s =
         .next ((s.active id).finishWord id op j [.data 0 (BitVec.ofNat 32 v)])) ∧
       (∀ f w, o.instr = .ld f w true → exec (.readComplete id op j) s =
         .next ((s.active id).finishWord id op j [.data 0 ((BitVec.ofNat (8 * w.bytes) v).signExtend 32)])) ∧
       (∀ f fmt, o.instr = .ldv f fmt → exec (.readComplete id op j) s =
         .next ((s.active id).finishWord id op j [.data fmt (BitVec.ofNat 32 v)]))) ∧
     (Claims.At s id op j .sent t o → t.servedByStaging own pa a.size = false → s.lineGood pa key = false →
       exec (.readComplete id op j) s = .next ((s.endWord id op j).raiseAccess id o.firing.src o.firing.tag a F_CHECK (t.shownVa a))) ∧
     (Claims.At s id op j .ready t o → ((∃ f w x, o.instr = .ld f w x) ∨ ∃ f fmt, o.instr = .ldv f fmt) → s.rangeHolds pa a.size = false →
       exec (.scoreboardWaitEnd id op j) s =
         .next (Claims.goesOn s id op j .sent pa (Claims.lineAsked o.instr o.firing t j pa) (.readComplete id op j)))) ∧
  (∀ (s : State) (t : Task) (k : InstKey) (lsid : BitVec 5) (a : Nat),
     let mine := t.staged.filter fun w => w.owner == .inst k && decide (w.lsid.toNat < lsid.toNat) && decide (w.pa ≤ a ∧ a < w.pa + w.bytes.length)
     let old := t.staged.filter fun w => w.owner == .committed && decide (w.pa ≤ a ∧ a < w.pa + w.bytes.length)
     (∀ w ∈ mine, (∀ v ∈ mine, v.lsid.toNat < w.lsid.toNat ∨ v = w) →
       s.readVisible t (some (k, lsid)) a 1 = [w.bytes.getD (a - w.pa) 0]) ∧
     (mine = [] → ∀ pre w, old = pre ++ [w] → s.readVisible t (some (k, lsid)) a 1 = [w.bytes.getD (a - w.pa) 0]) ∧
     (mine = [] → old = [] → s.readVisible t (some (k, lsid)) a 1 = [s.mem.read a]))

/-- LOAD_ORDER_RELEASE, HELD_FAULT_RECHECK and TRANSLATION_WALK take a word up again where it waited (R227 to R230, R232): it
goes on from its checks, a walk having filled the caches; a held word that fails them at its window base faults the task, and a
walk that finds no page takes F_XLATE there. AT_ONCE_RELEASE for an operation at memory, once its instance is the base of its window (R257): its request leaves for its
bank, and UNLOCK's releases its lock; words of one set leave in order. -/
def Obligations.WaitingWordsLeave : Prop :=
  (∀ (s : State) (id op j : Nat) (t : Task) (o : OpRec) (pa : Nat) (key : BitVec 12) (st : OpStage) (e : Instr),
     let a := accessOf o.instr o.firing j
     let va := (t.segment a.seg).va a.off
     let tile := tileOf o.firing.site
     (Claims.At s id op j .waiting t o → o.words.length = j + 1 →
       Claims.Passes o.instr s o.firing t j pa key → Claims.afterChecks o.instr id op j = some (st, e) →
       s.orderReady t (o.firing.instAt j) o.instr.fields.lsid (loadLike o.instr) = true →
       exec (.loadOrderRelease id op j) s = .next (Claims.goesOn s id op j st pa (Claims.lineAsked o.instr o.firing t j pa) e)) ∧
     (Claims.At s id op j .held t o → t.atBase (o.firing.instAt j) = true →
       (Claims.Passes o.instr s o.firing t j pa key → Claims.afterChecks o.instr id op j = some (st, e) →
         exec (.heldFaultRecheck id op j) s = .next (Claims.goesOn s id op j st pa (Claims.lineAsked o.instr o.firing t j pa) e)) ∧
       (∀ code x, (∀ f, o.instr ≠ .launch f) → (∀ f, o.instr ≠ .unlock f) → s.checkAccess t tile (segTypes o.instr) a = .fault code x →
         exec (.heldFaultRecheck id op j) s = .next (s.raise id (.at code o.firing.src
           (a.seg ++ BitVec.ofBool a.write ++ BitVec.ofBool a.str ++ a.ident ++ o.firing.tag.blk ++ o.firing.tag.inst ++ (0 : BitVec 7))
           a.off (BitVec.ofNat 32 x) (BitVec.ofNat 32 (x / 2 ^ 32)))))) ∧
     (Claims.At s id op j .walking t o → s.walkersBusy t.tower = false → ∀ leaf level, s.walk t.tcb.asid va = some (leaf, level) →
       let s1 := s.fillTlb t.hoop tile t.tcb.asid va leaf (level == 2)
       Claims.Passes o.instr s1 o.firing t j pa key → Claims.afterChecks o.instr id op j = some (st, e) →
       exec (.translationWalk id op j) s = .next (Claims.goesOn s1 id op j st pa (Claims.lineAsked o.instr o.firing t j pa) e)) ∧
     (Claims.At s id op j .walking t o → s.walkersBusy t.tower = false → s.walk t.tcb.asid va = none →
       t.atBase (o.firing.instAt j) = true → exec (.translationWalk id op j) s =
         .next ((s.withOpWord id op j fun w => { w with stage := .waiting }).raiseAccess id o.firing.src o.firing.tag a F_XLATE va))) ∧
  (∀ (s : State) (id op j : Nat) (t : Task) (o : OpRec), Claims.At s id op j .ready t o → t.isBase (o.firing.instAt j) = true →
     (∀ w ∈ o.words.take j, w.stage ≠ .ready) → (∀ f op, o.instr = .atomsc f op → t.serialBusy o.firing.site = false) →
     ((∃ op, bankOpOf o.instr = some op) ∨ (∃ f, o.instr = .lock f) →
       exec (.atOnceRelease id op j) s = .next (Claims.goesOn s id op j .sent (o.at j).pa (some 1) (.bankOperation id op j))) ∧
     ((∃ f, o.instr = .qput f ∨ o.instr = .qget f) →
       exec (.atOnceRelease id op j) s = .next (Claims.goesOn s id op j .sent (o.at j).pa none (.bankOperation id op j))) ∧
     ((∃ f, o.instr = .unlock f) →
       exec (.atOnceRelease id op j) s = .next (Claims.goesOn s id op j .sent (o.at j).pa none (.lockRelease id op j))))

/-- BANK_OPERATION for a bank operation other than ATOMSC, and ATOMSC_TOKEN_VISIT for the one ATOMSC that waits at the bank it
visits (R73, R267, R269, R271): the word takes the result of R267, every other byte stays, the flags go to the task's word at
the bank, and the reply carries the old value in the format of R267. -/
def Obligations.BankOperationsPerform : Prop :=
  ∀ (s : State) (id op j : Nat) (t : Task) (o : OpRec) (bop : BankOp), Claims.At s id op j .sent t o ∨ Claims.At s id op j .queued t o →
    bankOpOf o.instr = some bop → s.mem.wf = true →
    let a := (o.at j).pa - (o.at j).pa % 4
    let b := operand o.instr o.firing 1 j
    let old := s.mem.readWord a
    let r := Claims.bankNew bop old b.word (operand o.instr o.firing 2 j).word
    let fmt : BitVec 3 := if bop = .aswap ∨ bop = .acas then b.fmt else if bop = .afadd ∨ bop = .afmin ∨ bop = .afmax then 1 else 0
    Claims.Writable s a (t.keyOf (accessOf o.instr o.firing j)) →
    let does := fun (s' : State) => Claims.Stored s s' a r.1 ∧
      s'.agenda = s.agenda ++ [.event (.bankReply id op j ⟨old, 0, r.2, fmt, []⟩)] ∧
      (∀ k, k ≠ id → s'.task? k = s.task? k) ∧ s'.hoops = s.hoops ∧ s'.towers = s.towers ∧ s'.locks = s.locks ∧
      (∀ x, (s'.bankFlags.find? fun y => y.bank == bankOf a && y.slot == t.slot) = some x →
        x.flags = r.2 ||| (((s.bankFlags.find? fun y => y.bank == bankOf a && y.slot == t.slot).map (·.flags)).getD 0))
    ((Claims.At s id op j .sent t o → (∀ f op, o.instr ≠ .atomsc f op) → ∃ s', exec (.bankOperation id op j) s = .next s' ∧ does s') ∧
     (∀ bank, s.serial = [⟨bank, id, op, j⟩] →
       ∃ s', exec (.atomscTokenVisit bank) s = .next s' ∧ does s' ∧ s'.serial = [] ∧ s'.serialBank = (bank + 1) % 512))

/-- BANK_REPLY (R257, R270, R272, R277, R281): the reply of a bank operation that counts finishes its word with the value it
carries; LOCK's sends a LOCK token of its lock id by itself, under its word's iteration; a refused mark takes F_WONCE, a
refused lock or release F_LOCK, and a defective queue line F_SEG. The reply to a word whose instance is gone is discarded. -/
def Obligations.RepliesFinish : Prop :=
  ∀ (s : State) (id op j : Nat) (t : Task) (o : OpRec) (r : BankReply), Claims.At s id op j .sent t o →
    let a := accessOf o.instr o.firing j
    let detail : Word := a.seg ++ BitVec.ofBool a.write ++ BitVec.ofBool a.str ++ a.ident ++ o.firing.tag.blk ++ o.firing.tag.inst ++ (0 : BitVec 7)
    let stopped := s.endWord id op j
    (∀ f op', (Claims.bankRule o.instr = some (f, op') ∨ o.instr = .atomsc f op') → r.status = 0 →
      (∃ x, t.inst? (o.firing.instAt j) = some x ∧ x.has (.lsid o.instr.fields.lsid) = false) →
      exec (.bankReply id op j r) s = .next ((s.count id o.firing.src o.firing.tag (o.firing.instAt j) (.lsid o.instr.fields.lsid)).finishWord
        id op j [.data r.fmt r.value])) ∧
    (∀ f, o.instr = .iread f → r.status = 0 → exec (.bankReply id op j r) s = .next (s.finishWord id op j [.data r.fmt r.value])) ∧
    (∀ f, o.instr = .lock f → r.status = 0 → exec (.bankReply id op j r) s = .next
      (((s.active id).emitControl o.firing .keep { o.firing.tag with iter := o.firing.tag.iter + BitVec.ofNat 12 j } [f.t0] 7 [4, r.value]).finishWord
        id op j [])) ∧
    (∀ f, o.instr = .iwrite f → r.status = 2 → exec (.bankReply id op j r) s =
      .next (stopped.raise id (.at F_WONCE o.firing.src detail a.off (r.words.getD 0 0) 0))) ∧
    (∀ f, o.instr = .lock f → r.status = 3 → exec (.bankReply id op j r) s =
      .next (stopped.raise id (.at F_LOCK o.firing.src detail a.off r.value (r.words.getD 0 0)))) ∧
    (∀ f, o.instr = .unlock f → r.status = 3 → exec (.bankReply id op j r) s =
      .next (stopped.raise id (.at F_LOCK o.firing.src detail 0 r.value (r.words.getD 0 0))))

/-- STRUCT_REQUEST (R260, R261), STRUCT_POOL_WAIT_END and READER_CANCEL (R260, R266). A read of a full word answers it with its
format; one of an empty word, or of a deferred one, takes a reader entry of its tower's pool and the end of the word's list,
and the word is or stays deferred; with the pool full it waits. A mark of an empty or deferred word makes it provisional under
the task and keeps its readers; one of a full word is refused. A cancel takes the entries of dropped words off every list. -/
def Obligations.StructureRequests : Prop :=
  ∀ (s : State) (id op j : Nat) (t : Task) (o : OpRec), Claims.WordsRise s →
    let a := (o.at j).pa - (o.at j).pa % 4
    let tower := structTower a
    let key := t.keyOf (accessOf o.instr o.firing j)
    let replied := fun (s : State) (w : Word) (fmt : BitVec 3) =>
      (s.withOpWord id op j fun w => { w with stage := .sent }).push (.bankReply id op j ⟨w, 0, 0, fmt, []⟩)
    let joined := fun (s' : State) =>
      (s'.wordAt a).map (fun w => (w.code, w.readers)) =
        some (.deferred, ((s.wordAt a).map (·.readers)).getD [] ++ [⟨id, op, j, t.tower⟩]) ∧
      s'.agenda = s.agenda ∧ (∀ b, b < a ∨ a + 4 ≤ b → s'.mem.read b = s.mem.read b) ∧
      (∀ b, b ≠ a → s'.wordAt b = s.wordAt b) ∧ (s'.op? id op).map (fun x => (x.2.at j).stage) = some .reading
    (Claims.At s id op j .sent t o → (∃ f, o.instr = .iread f) →
      (∀ w, s.wordAt a = some w → w.code = .full → s.lineGood a key = true →
        exec (.structRequest id op j) s = .next (replied s (s.mem.readWord a) w.fmt)) ∧
      ((s.wordAt a = none ∨ ∃ w, s.wordAt a = some w ∧ w.code = .deferred) → (s.tower tower).poolUsed < 1048576 → tower < s.towers.length →
        j < o.words.length → ∃ s', exec (.structRequest id op j) s = .next s' ∧ joined s' ∧ (s'.tower tower).poolUsed = (s.tower tower).poolUsed + 1) ∧
      (s.wordAt a = none → 1048576 ≤ (s.tower tower).poolUsed → exec (.structRequest id op j) s = .next
        ((s.withOpWord id op j fun w => { w with stage := .queued }).push (.structPoolWaitEnd id op j)))) ∧
    (Claims.At s id op j .queued t o → (s.wordAt a = none ∨ ∃ w, s.wordAt a = some w ∧ w.code = .deferred) →
      (s.tower tower).poolUsed < 1048576 → tower < s.towers.length → j < o.words.length →
      ∃ s', exec (.structPoolWaitEnd id op j) s = .next s' ∧ joined s' ∧ (s'.tower tower).poolUsed = (s.tower tower).poolUsed + 1) ∧
    (Claims.At s id op j .sent t o → (∃ f, o.instr = .iwrite f) →
      ((s.wordAt a = none ∨ ∃ w, s.wordAt a = some w ∧ w.code = .deferred) → ∃ s', exec (.structRequest id op j) s = .next s' ∧
        s'.wordAt a = some ⟨a, .provisional, ((s.wordAt a).map (·.fmt)).getD 0, some (.task id), 0, ((s.wordAt a).map (·.readers)).getD []⟩ ∧
        s'.agenda = s.agenda ++ [.event (.bankReply id op j ⟨0, 0, 0, 0, []⟩)] ∧ (∀ b, b < a ∨ a + 4 ≤ b → s'.mem.read b = s.mem.read b)) ∧
      (∀ w, s.wordAt a = some w → w.code = .full → (∀ c, t.committedOp a (fun _ => true) = some c → c.what ≠ .clear) → exec (.structRequest id op j) s =
        .next (s.freshen.push (.bankReply id op j ⟨0, 2, 0, 0, [0x0000FF03]⟩)))) ∧
    (s.op? id op = some (t, o) → ∃ s', exec (.readerCancel id op) s = .next s' ∧
      ∀ w ∈ s'.words, ∀ r ∈ w.readers, r.task = id → r.op = op → (o.at r.j).dropped = false)

namespace Sys2Proof.Claims

/-- A lock slot granted to a word of a task, with those that wait for it. -/
def granted (s : State) (bank slot id : Nat) (k : InstKey) (ws : List Reader) : State :=
  { s with locks := s.locks ++ [(⟨bank, slot, id, k, ws⟩ : Lock)] }

/-- The bank's reply to a word. -/
def replied (s : State) (id op j : Nat) (r : BankReply) : State := s.push (.bankReply id op j r)

/-- A word joins the waiters of a lock slot. -/
def joinLock (bank slot : Nat) (r : Reader) (m : Lock) : Lock :=
  if m.bank = bank ∧ m.slot = slot then { m with waiters := m.waiters ++ [r] } else m

/-- The waiters at a bank. -/
def lockWaiters (s : State) (bank : Nat) : Nat := ((s.locks.filter fun m => m.bank == bank).map fun m => m.waiters.length).sum

/-- The lock id word (R272). -/
def lockWord (bank slot : Nat) : Word := BitVec.ofNat 32 (bank * 65536 + slot)

/-- A queue request of a valid control line `q` (R277) whose turn it is (R279, R280): its entry words lie at `pas`, all of them
accessible. -/
def QueueServed (s : State) (t : Task) (o : OpRec) (j : Nat) (q : QueueLine) (get : Bool) (e : Word) (pas : List Nat) : Prop :=
  s.taskQueue t o j = some q ∧ q.misfit o.firing.win = none ∧ s.queueTurn q get (o.at j).pa t.id o.id j = true ∧ pas.length = q.size ∧
    ∀ k pa, pas[k]? = some pa → ∃ key, s.checkAccess t (tileOf o.firing.site) [2]
      { accessOf o.instr o.firing j with off := (accessOf o.instr o.firing j).off + BitVec.ofNat 32 (q.rbase + e.toNat % q.n * 4 * q.size + 4 * k) } =
        .ok pa key

/-- The request waits no longer and is being served. -/
def unqueued (s : State) (id op j : Nat) : State :=
  ({ s with queueWaits := s.queueWaits.filter fun w => !(w.task == id && w.op == op && w.j == j) }).withOpWord id op j
    fun w => { w with stage := .sent }

/-- A queue request joins the waits of its control line, until its limit (R281). -/
def queued (s : State) (line : Nat) (get : Bool) (id op j limit : Nat) : State :=
  ({ s with queueWaits := s.queueWaits ++ [(⟨line, get, id, op, j, s.time.toNat + 16 * limit⟩ : QueueWait)] }).withOpWord id op j
    fun w => { w with stage := .queued }

end Sys2Proof.Claims

/-- LOCK at its bank (R272, R275), LOCK_TILE_WAIT_END and LOCK_RELEASE (R272, R274): a free slot is granted at once; a slot the
task holds is misuse 2; a slot that another task holds takes the request at the end of its waiters, unless 64 wait at the
bank, when it waits at its tile. A release frees the slot, acknowledges, and grants it to its first waiter; a release of a lock
that the task does not hold is misuse 1.
The model's choices it rests on: log entries 37 and 46. -/
def Obligations.LocksGrantAndRelease : Prop :=
  ∀ (s : State) (id op j : Nat) (t : Task) (o : OpRec), Claims.At s id op j .sent t o →
    let bank := bankOf (o.at j).pa
    let slot := (o.at j).pa / 4 % 256
    let held := s.locks.find? fun l => l.bank == bank && l.slot == slot
    let request := fun (e : Instr) =>
      (held = none → exec e s = .next
        (Claims.replied (Claims.granted s bank slot id (o.firing.instAt j) []) id op j ⟨Claims.lockWord bank slot, 0, 0, 7, []⟩)) ∧
      (∀ l, held = some l → l.task = id → exec e s = .next (Claims.replied s id op j ⟨Claims.lockWord bank slot, 3, 0, 7, [2]⟩)) ∧
      (∀ l, held = some l → l.task ≠ id → Claims.lockWaiters s bank < 64 → exec e s = .next
        (({ s with locks := s.locks.map (Claims.joinLock bank slot ⟨id, op, j, t.tower⟩) }).withOpWord id op j
          fun w => { w with stage := .queued }))
    let lock := (o.firing.a.map fun k => k.words.getD 1 0).getD 0
    let mine := s.locks.find? fun l => lockId l.bank l.slot == lock && l.task == id
    ((∃ f, o.instr = .lock f) → request (.bankOperation id op j) ∧ request (.lockTileWaitEnd id op j) ∧
      (∀ l, held = some l → l.task ≠ id → 64 ≤ Claims.lockWaiters s bank →
        exec (.bankOperation id op j) s = .next (s.push (.lockTileWaitEnd id op j)))) ∧
    (∀ l, mine = some l →
      let freed := { Claims.replied s id op j ⟨0, 0, 0, 7, []⟩ with
        locks := s.locks.filter fun m => !(m.bank == l.bank && m.slot == l.slot) }
      (l.waiters = [] → exec (.lockRelease id op j) s = .next freed) ∧
      (∀ w rest, l.waiters = w :: rest → ∃ k, exec (.lockRelease id op j) s = .next
        (Claims.replied (Claims.granted freed l.bank l.slot w.task k rest) w.task w.op w.j
          ⟨Claims.lockWord l.bank l.slot, 0, 0, 7, []⟩))) ∧
    (mine = none → exec (.lockRelease id op j) s = .next (Claims.replied s id op j ⟨lock, 3, 0, 7, [1]⟩))

/-- QPUT and QGET at their control bank, on arrival by BANK_OPERATION and after a wait by QUEUE_PUT_SERVE and QUEUE_GET_SERVE
(R277, R279, R280): a put writes its entry words and then TAIL + 1, and answers the old TAIL; a get reads its entry and then
writes HEAD + 1, and answers the entry words. One that cannot be served waits, is served up to its limit, and at its limit, when
nothing is on its way to its control line, QUEUE_WAIT_EXPIRE answers with QID, HEAD and TAIL (R281).
The model's choices it rests on: log entries 44 and 144. -/
def Obligations.QueuesServe : Prop :=
  ∀ (s : State) (id op j : Nat) (t : Task) (o : OpRec) (q : QueueLine) (pas : List Nat),
    let line := (o.at j).pa
    let key := t.keyOf (accessOf o.instr o.firing j)
    let s0 := Claims.unqueued s id op j
    let wait := s.queueWaits.find? fun w => w.task == id && w.op == op && w.j == j
    let inTime := ∀ w, wait = some w → s.time.toNat ≤ w.deadline
    let put := Claims.replied ((s0.writeWords key (slotWriter t.slot) (pas.zip (o.firing.win.map (·.word)))).writeWords key
      (slotWriter t.slot) [(line + 16, q.tail + 1)]) id op j ⟨q.tail, 0, 0, 0, []⟩
    let got := Claims.replied (s0.writeWords key (slotWriter t.slot) [(line + 12, q.head + 1)]) id op j
      ⟨q.wfmt, 0, 0, 0, pas.map s.mem.readWord⟩
    ((∃ f, o.instr = .qput f) → Claims.QueueServed s t o j q false q.tail pas →
      (Claims.At s id op j .sent t o → exec (.bankOperation id op j) s = .next put) ∧
      (Claims.At s id op j .queued t o → inTime → exec (.queuePutServe id op j) s = .next put)) ∧
    ((∃ f, o.instr = .qget f) → Claims.QueueServed s t o j q true q.head pas →
      (Claims.At s id op j .sent t o → exec (.bankOperation id op j) s = .next got) ∧
      (Claims.At s id op j .queued t o → inTime → exec (.queueGetServe id op j) s = .next got)) ∧
    (∀ get, s.taskQueue t o j = some q → q.misfit o.firing.win = none → s.queueTurn q get line id op j = false →
      ((∃ f, o.instr = .qput f ∧ get = false) ∨ (∃ f, o.instr = .qget f ∧ get = true)) →
      (Claims.At s id op j .sent t o → exec (.bankOperation id op j) s = .next
        ((Claims.queued s line get id op j (queueLimit o.instr.fields.lit)).pushAll
          [if get then .queueGetServe id op j else .queuePutServe id op j, .queueWaitExpire id op j])) ∧
      (Claims.At s id op j .queued t o → ∀ w, wait = some w → w.task = id → w.op = op → w.j = j →
        w.get = get → w.line = line → w.deadline ≤ s.time.toNat → s.queueAhead line = false → exec (.queueWaitExpire id op j) s = .next
          (Claims.replied (({ s with queueWaits := s.queueWaits.filter fun v => v != w }).withOpWord id op j fun x =>
            { x with stage := .sent }) id op j ⟨0, 1, 0, 0, [q.qid, q.head, q.tail]⟩)))

namespace Sys2Proof.Claims

/-! ### Streams -/

/-- The stream that an opener's word opens (R239 to R244), before any element. -/
def newStream (s : State) (o : OpRec) (j tile : Nat) (w : Bool) (fmt : BitVec 3) (p : Pattern) (asks : Bool) : Stream where
  uid := s.fresh
  sid := p.sid
  tile := tile
  firing := o.firing.part j 1
  instr := o.instr
  write := w
  fmt := fmt
  base := (operand o.instr o.firing 0 j).word
  runMax := p.runMax
  count := p.count
  dims := p.dims
  indirect := p.indirect
  idxoff := p.idxoff
  shift := p.shift
  remote := p.remote
  next := 0
  done := 0
  buffer := []
  lines := []
  outs := []
  leave := 0
  asked := asks
  op := (o.id, j)
  closed := false
  instDone := false

/-- The direction and format of an opener and its descriptor's pattern (R240, R241). -/
def opens (i : Instr) (d : List Word) (w : Bool) (fmt : BitVec 3) (p : Pattern) : Prop :=
  (∃ f, (i = .sopenRead f fmt ∧ w = false ∨ i = .sopenWrite f fmt ∧ w = true) ∧ affinePattern d = some p) ∨
  (∃ f, (i = .sindRead f fmt ∧ w = false ∨ i = .sindWrite f fmt ∧ w = true) ∧ indirectPattern d = some p)

/-- The stream of a task that goes on, whose next element may be accessed (R244, R247, R250). -/
def StreamGoes (s : State) (id : Nat) (t : Task) (x : Stream) : Prop :=
  s.stream? id x.uid = some (t, x) ∧ t.frozen = .none ∧ t.phase = .running ∧ t.schedule = false ∧ t.id = id ∧ x.firing.task = id ∧
    x.asked = false ∧ t.held x.sid = false ∧ s.streamHeld t x = false ∧ x.indirect = false ∧ x.remote = none

end Sys2Proof.Claims

/-- The offsets of an affine stream (R240): element e has index e mod c0 in the first dimension, (e div c0) mod c1 in the second
and so on, and lies at the base plus each index times its stride, modulo 2^32. STREAM_ELEMENT_ACCESS on an affine stream (R243, R244): a read stream takes its next element from a line it holds, and goes
on while its run is short of its length; a write stream stages its next word as a plain write of its own and goes on. STREAM_DATA_
ARRIVAL joins a token's words to the write stream's buffer, as many as its tile's 64 words have room for; the rest wait. -/
def Obligations.StreamElementsMove : Prop :=
  (∀ (base s0 s1 s2 : Word) (c0 c1 c2 e : Nat),
     affineOffset base [(c0, s0)] e = base + BitVec.ofNat 32 (e % c0) * s0 ∧
     affineOffset base [(c0, s0), (c1, s1)] e = base + BitVec.ofNat 32 (e % c0) * s0 + BitVec.ofNat 32 (e / c0 % c1) * s1 ∧
     affineOffset base [(c0, s0), (c1, s1), (c2, s2)] e =
       base + BitVec.ofNat 32 (e % c0) * s0 + BitVec.ofNat 32 (e / c0 % c1) * s1 + BitVec.ofNat 32 (e / (c0 * c1) % c2) * s2) ∧
  (∀ (s : State) (id : Nat) (t : Task) (x : Stream) (pa : Nat) (key : BitVec 12),
     let off := affineOffset x.base x.dims x.next
     let again := fun (s : State) => s.push (.streamElementAccess id x.uid)
     (Claims.StreamGoes s id t x → (s.checkAccess t (some x.tile) (segTypes x.instr) (x.access off x.write) = .ok pa key) →
       x.next + 1 < x.count →
       (∀ bs, x.write = false → s.admitted t (x.firing.instAt x.next) = true → x.outs.length + 1 < x.runMax →
         (x.lines.find? fun l => l.1 == pa - pa % 64) = some (pa - pa % 64, bs) → exec (.streamElementAccess id x.uid) s = .next
           (again ((s.active id).withStream id x.uid fun y => { y with
             outs := x.outs ++ [.data x.fmt (BitVec.ofNat 32 (natOfBytes ((bs.drop (pa % 64)).take 4)))], next := x.next + 1 }))) ∧
       (∀ b, x.write = true → b.fmt ≠ 7 → (x.buffer.find? fun b => b.off == (x.firing.tag.iter + BitVec.ofNat 12 x.next).toNat) = some b →
         t.stagingUsed (t.stageQuad x.firing.site) < 2048 → exec (.streamElementAccess id x.uid) s = .next
           (again (((s.countFire id (t.domainOf x.firing.site)).withTask id fun u => { u with staged := u.staged ++
             [⟨t.stageQuad x.firing.site, .stream x.uid, 0, pa, bytesOfNat b.word.toNat 4, key⟩] }).withStream id x.uid fun y => { y with
               next := x.next + 1, done := x.done + 1,
               buffer := y.buffer.filter (fun c => c.off != (x.firing.tag.iter + BitVec.ofNat 12 x.next).toNat) })))) ∧
     (∀ fl : Flight, fl.task = id → s.task? id = some t → t.phase = .running → t.writeStream? fl.tok.tag = some x →
       let n := t.bufferRoom x fl.tok
       let joined := s.withStream id x.uid fun y => { y with buffer := (y.buffer ++
         (fl.tok.words.take n).mapIdx fun k w => ⟨(fl.tok.tag.iter + BitVec.ofNat 12 k).toNat, fl.tok.tag.fmt, w⟩) }
       (0 < n → fl.tok.words.length ≤ n → exec (.streamDataArrival fl) s = .next joined) ∧
       (∀ k, s.cur = some (.event (.streamDataArrival fl), k) → 0 < n → n < fl.tok.words.length → exec (.streamDataArrival fl) s =
         .next { joined with
           agenda := s.agenda.take k ++
             .event (.streamDataArrival { fl with tok := fl.tok.part n (fl.tok.words.length - n) }) :: s.agenda.drop k
           cur := none }) ∧
       (n = 0 → exec (.streamDataArrival fl) s = .next s.block)))

/-- STREAM_ENGINE_ACQUIRE and CIRCUIT_SETUP (R239 to R245): an opener whose descriptor is good takes its SID and an engine of its
tile once both are free, and, for a remote scratchpad, whose circuits are free to a hoop with a task of its address space, opens its
stream, and its first element comes up. One with a pattern of 256 lines or more first asks for leave. SCLOSE on a word closes the named stream, a write stream emitting the number of elements it staged, and emits its word; with
no such stream open it only emits it (R246). SBAR on a word waits as long as the named streams have staged elements that have not
performed, and holds back the streams of its other mask meanwhile; with none it emits its A word (R247).
The model's choices it rests on: log entries 49 and 50. -/
def Obligations.StreamsOpenAndClose : Prop :=
  (∀ (s : State) (id op j tile : Nat) (t : Task) (o : OpRec) (w : Bool) (fmt : BitVec 3) (p : Pattern),
     let base := (operand o.instr o.firing 0 j).word
     let opened := fun (s : State) (asks : Bool) => s.freshen.withTask id fun u =>
       { u with streams := u.streams ++ [Claims.newStream s o j tile w fmt p asks] }
     let large := p.large (t.segment o.instr.fields.seg).base base (s.peekIndex t o.instr tile p.idxoff)
     o.firing.site = .tile tile → base.toNat % 4 = 0 →
     (Claims.At s id op j .ready t o → (o.at j).data = [] → Claims.opens o.instr (s.descriptor t o j) w fmt p → (∀ x ∈ t.enginesTaken, x.1 ≠ p.sid) →
       (t.enginesTaken.filter fun x => x.2 == tile).length < 8 → s.lineGood (o.at j).pa (t.keyOf (accessOf o.instr o.firing j)) = true →
       (p.remote = none → large = false → exec (.streamEngineAcquire id op j) s = .next
         (((opened s false).finishWord id op j []).push (.streamElementAccess id s.fresh))) ∧
       (p.remote = none → large = true → exec (.streamEngineAcquire id op j) s = .next
         ((((opened s true).askLeave t.hoop (tileQuad tile) ⟨id, op, j, t.tower⟩ ((opened s true).leaveStep t.hoop (tileQuad tile) 4)).finishWord
           id op j []).push (.streamElementAccess id s.fresh))) ∧
       (∀ h, p.remote = some h → (t.segment o.instr.fields.seg).typ = 3 → exec (.streamEngineAcquire id op j) s = .next
         ((s.withOpWord id op j fun w => { w with stage := .queued, data := s.descriptor t o j }).push (.circuitSetup id op j)))) ∧
     (∀ h, Claims.At s id op j .queued t o → Claims.opens o.instr (o.at j).data w fmt p → p.remote = some h → large = false →
       (∃ u ∈ s.tasks, u.hoop = h ∧ u.tcb.asid = t.tcb.asid ∧ u.phase ≠ .saved) →
       (s.circuits.filter fun c => c.source == t.hoop).length < 16 → (s.circuits.filter fun c => c.dest == h).length < 16 →
       exec (.circuitSetup id op j) s = .next
         ((({ opened s false with circuits := s.circuits ++ [(⟨t.hoop, h, id, s.fresh⟩ : Circuit)] }).finishWord id op j []).push
           (.streamElementAccess id s.fresh)))) ∧
  (∀ (f : SForm) (s : State) (g : Firing) (t : Task), Claims.Fires s g t → g.n = 1 →
     let s1 := s.countFire g.task (t.domainOf g.site)
     let named := t.openStreams.find? fun x => x.sid == (f.lit &&& 31#32).toNat
     (∀ fmt w, operand (.sclose f) g 0 0 = .data fmt w → predicateFalse (.sclose f) g 0 = false →
       (named = none → exec (.sclose f) s = .next (Claims.emitted (.sclose f) g (fun _ => .data fmt w) s1)) ∧
       (∀ x, named = some x → x.write = false → exec (.sclose f) s =
         .next (Claims.emitted (.sclose f) g (fun _ => .data fmt w) (s1.closeStream g.task x))) ∧
       (∀ x, named = some x → x.write = true → exec (.sclose f) s =
         .next (Claims.emitted (.sclose f) g (fun _ => .data fmt w) ((s1.closeStream g.task x).emitOuts x.firing .keep x.firing.tag
           [x.instr.fields.t0] [.data 0 (BitVec.ofNat 32 x.done)])))) ∧
     (performs (.sbar f) g 0 = true → (∀ o ∈ t.ops, o.id < t.nextOp) →
       (∀ o ∈ t.ops, ∀ f, o.instr ≠ .sbar f) → (∀ x ∈ t.streams, x.uid < 2 ^ 32) →
       let waits := t.unperformed (Claims.opA (.sbar f) g 0)
       let s2 := (Claims.began (.sbar f) s g t).withOpWord g.task t.nextOp 0 fun w =>
         { w with stage := .queued, data := waits, pending := 1 }
       (waits = [] → exec (.sbar f) s = .next (s2.finishWord g.task t.nextOp 0 [operand (.sbar f) g 0 0])) ∧
       (waits ≠ [] → exec (.sbar f) s = .next s2)))

namespace Sys2Proof.Claims

/-! ### Tokens, contexts and instances -/

/-- A token of one data word arrives at a port that accepts it: its task runs, its context is live, and its instance stands in its
window and is not squashed (R26, R31, R187, R193). -/
structure Reaches (s : State) (fl : Flight) (t : Task) (i : Instr) : Prop where
  task : s.task? fl.task = some t
  runs : t.phase = .running
  store : t.schedule = false
  context : (t.context? fl.tok.tag.ctx).isSome
  sound : fl.tok.tag.corrupt = false
  instance_ : (t.inst? ⟨fl.tok.tag.blk, fl.tok.tag.ctx, fl.tok.tag.iter⟩).isSome
  window : ∃ w, t.window? fl.tok.tag.blk fl.tok.tag.ctx = some w ∧ (fl.tok.tag.iter - w.base).toNat < 2048
  live : t.squashed fl.tok.tag.blk fl.tok.tag.ctx fl.tok.tag.iter = false
  names : t.instr? fl.tok.tag.blk fl.tok.tag.inst = some i
  takes : (i.accepts fl.tok.tag.port).takes fl.tok = true
  word : ∃ w, fl.tok.words = [w]

/-- Such a token where nothing of its task is in spill, and its receiving port takes tokens (R43). -/
structure Arrives (s : State) (fl : Flight) (t : Task) (i : Instr) : Prop extends Reaches s fl t i where
  unspilled : t.filters = []
  port : s.portClosed fl = false

/-- What is left when a waiting token of one word has joined a set. -/
def without (t : Task) (w : Wait) : List Wait := t.waiting.filter fun v => v != w

/-- The token of a set on a port. -/
def onPort (g : Firing) (p : BitVec 2) : Option Token :=
  match p with
  | 0 => g.a
  | 1 => g.b
  | 2 => g.c
  | _ => g.p

end Sys2Proof.Claims

/-- The tag actions (R35): what each makes of the tag of a token on its way to a target of its block. TOKEN_ROUTE, TOKEN_ARRIVAL, SPILL_SEARCH, HELD_TOKEN_ACCEPT and HEADER_LATCH_FREED (R30, R39 to R43, R48, R52, R174). A
token of one word for an integer instruction of two ports forms a complete set with the waiting token of the other port under its
CTX, BLK, INST, PATH and PDEP at its iteration; with no such token it waits at its element. A search of the spill area finds a
partner there, whose presence counts fall, or none. A header replaces the latch of its
instruction and context. A token whose context is gone is counted as stray.
The model's choices it rests on: log entries 10, 11 and 13. -/
def Obligations.TokensMatch : Prop :=
  (∀ (tag : Tag), tag.act .keep = tag ∧ tag.act .inc = { tag with iter := tag.iter + 1 } ∧
     tag.act .dec = { tag with iter := tag.iter + 4095 } ∧ tag.act .zero = { tag with iter := 0 } ∧
     tag.act .clrp = { tag with path := 0, pdep := 0 } ∧
     (tag.pdep = 0 → tag.act .popp = tag) ∧
     (∀ n, tag.pdep.toNat = n + 1 → n < 4 → (tag.act .popp).pdep = tag.pdep - 1 ∧ (tag.act .popp).path = tag.path &&& ~~~(1#4 <<< n) ∧
       (tag.act .popp).ctx = tag.ctx ∧ (tag.act .popp).iter = tag.iter)) ∧
  (∀ (s : State) (fl : Flight) (t : Task) (i : Instr),
     (∀ it k, s.cur = some (it, k) → exec (.tokenRoute fl) s =
       .next { s with agenda := s.agenda.take k ++ .event (.tokenArrival fl) :: s.agenda.drop k, cur := none }) ∧
     (Claims.Arrives s fl t i → fl.tok.tag.fmt ≠ 6 → fl.tok.tag.fmt ≠ 7 → (Claims.integerRule i).isSome →
       ∀ e ∈ [Instr.tokenArrival fl, .spillSearch fl, .heldTokenAccept fl], ∀ q, i.partners fl.tok.tag.port = [q] →
       (∀ w v, ((t.mates fl false q).find? fun w => w.covers fl.tok.tag.iter) = some w → w.tok.words = [v] →
         { t with waiting := Claims.without t w }.openTo (s.setsOf fl.task) fl.dst fl.tok.tag.ctx 1 2 = true →
         ∃ s' g, exec e s = .next s' ∧ s'.agenda = s.agenda ++ [.firing g] ∧ (s'.task? fl.task).map (·.waiting) = some (Claims.without t w) ∧
           g.task = fl.task ∧ g.site = fl.dst ∧ g.n = 1 ∧ Claims.onPort g fl.tok.tag.port = some fl.tok ∧ Claims.onPort g q = some w.tok ∧
           g.tag.ctx = fl.tok.tag.ctx ∧ g.tag.blk = fl.tok.tag.blk ∧ g.tag.inst = fl.tok.tag.inst ∧ g.tag.iter = fl.tok.tag.iter ∧
           g.tag.path = fl.tok.tag.path ∧ g.tag.pdep = fl.tok.tag.pdep) ∧
       (((t.mates fl false q).find? fun w => w.covers fl.tok.tag.iter) = none → t.openTo (s.setsOf fl.task) fl.dst fl.tok.tag.ctx 1 1 = true →
         ∃ s', exec e s = .next s' ∧ s'.agenda = s.agenda ∧ (s'.task? fl.task).map (·.waiting) =
           some (t.waiting ++ [⟨fl.dst, fl.tok, fl.bound.getD 0, false, none, fl.src, none⟩]))) ∧
     (Claims.Reaches s fl t i → fl.tok.tag.fmt ≠ 6 → fl.tok.tag.fmt ≠ 7 → (Claims.integerRule i).isSome →
       ∀ q, i.partners fl.tok.tag.port = [q] →
       let mate := (t.mates fl (t.spillNear i fl) q).find? fun w => w.covers fl.tok.tag.iter
       (∀ w v p, mate = some w → w.tok.words = [v] → w.slot = some p → (∀ u ∈ t.waiting, u.slot = some p → u = w) →
         (∀ a ∈ t.accums, a.slot ≠ some p) →
         { t with waiting := Claims.without t w }.openTo (s.setsOf fl.task) fl.dst fl.tok.tag.ctx 1 2 = true →
         ∃ s' g t', exec (.spillSearch fl) s = .next s' ∧ s'.agenda = s.agenda ++ [.firing g] ∧ s'.task? fl.task = some t' ∧
           t'.waiting = Claims.without t w ∧ t'.filters = (t.freeSpill p).filters ∧
           g.n = 1 ∧ Claims.onPort g fl.tok.tag.port = some fl.tok ∧ Claims.onPort g q = some w.tok) ∧
       (mate = none → t.openTo (s.setsOf fl.task) fl.dst fl.tok.tag.ctx 1 1 = true →
         ∃ s', exec (.spillSearch fl) s = .next s' ∧ s'.agenda = s.agenda ∧ (s'.task? fl.task).map (·.waiting) =
           some (t.waiting ++ [⟨fl.dst, fl.tok, fl.bound.getD 0, false, none, fl.src, none⟩]))) ∧
     (∀ f, Claims.Arrives s fl t (.cvt f) → cvtSfmt f.lit = 4 ∨ cvtSfmt f.lit = 5 → fl.tok.tag.fmt = 6 → fl.tok.tag.port = 0 →
       headerDefect fl.tok.words = false → t.latchOpen fl = true → ∀ e ∈ [Instr.tokenArrival fl, .headerLatchFreed fl],
       ∃ s', exec e s = .next s' ∧ (s'.task? fl.task).map (·.latches) = some ((t.latches.filter fun m => !m.isFor fl) ++
         [⟨fl.dst, fl.tok.tag.blk, fl.tok.tag.inst, fl.tok.tag.ctx, (fl.tok.words.headD 0).extractLsb' 0 8,
           BitVec.ofNat 3 (bits (fl.tok.words.headD 0) 19 17), bits (fl.tok.words.headD 0) 15 8 + 1, (fl.tok.words.headD 0).getLsbD 16⟩])) ∧
     (s.task? fl.task = some t → t.context? fl.tok.tag.ctx = none → s.portClosed fl = false → fl.tok.tag.fmt ≠ 6 →
       exec (.tokenArrival fl) s = .next (s.withHoop t.hoop fun x => { x with stray := x.stray + 1 })))

/-- CONTEXT_GRANT of an instruction's request (R51, R205, R207), SWEEP_START and SWEEP_END (R53, R193, R205). A request for a child that is live sends its
tokens into it. A request of the oldest chain takes one of the task's reserve, and any other one of the free pool while the
throttle is off: a free number becomes a child of the requester with an empty frame, and the tokens go into it. A sweep marks what
is retired when it starts, and once no token is ahead of it frees exactly that, and clears the squash records it found.
The model's choices it rests on: log entry 33. -/
def Obligations.ContextsGrantAndSweep : Prop :=
  ∀ (s : State) (r : CtxRequest) (t : Task) (p : Context), s.task? r.task = some t → t.phase = .running → t.frozen = .none →
    t.ended = false → r.entry = false → t.context? r.parent.ctx = some p → s.requestOrdered t r = false →
    let enter := fun (s : State) (n : BitVec 12) => s.pushAll (r.sends.map fun f =>
      .tokenRoute { f with tok := { f.tok with tag := { f.tok.tag with ctx := n } } })
    (∀ c, t.childOf r = some c → r.route = none →
      exec (.contextGrant r) s = .next (enter s c.ctx)) ∧
    (t.childOf r = none → s.requestBehind t (t.onChain r) = false → (s.grantFor t (t.onChain r) = .fromReserve ∨ s.grantFor t (t.onChain r) = .fromPool) →
      (∃ n, s.ctxFree t.hoop n = true) →
      ∃ n s1, s.ctxFree t.hoop n = true ∧ exec (.contextGrant r) s = .next (enter s1 n) ∧ s1.agenda = s.agenda ∧
        ∃ t1, s1.task? r.task = some t1 ∧ t1.contexts = t.contexts ++ [⟨n, t.nextSeq, some r.parent, r.target, r.route, [], p.wid, false⟩] ∧
          t1.reserve = (if s.grantFor t (t.onChain r) = .fromReserve then t.reserve - 1 else t.reserve)) ∧
    (∀ h, h < s.hoops.length → (s.hoop h).sweep = none → (s.hoop h).retired ≠ [] → ∃ s', exec (.sweepStart h) s = .next s' ∧
      (s'.hoop h).sweep = some (s.hoop h).retired ∧ (s'.hoop h).retired = (s.hoop h).retired ∧ s'.agenda = s.agenda ++ [.event (.sweepEnd h)] ∧
      ∀ u ∈ s'.tasks, u.hoop = h → ∀ q ∈ u.squashes, q.old = true) ∧
    (∀ h freed, h < s.hoops.length → (s.hoop h).sweep = some freed → s.sweepHeld h = false →
      s.tokenAhead h ((s.cur.map (·.2)).getD 0) = false →
      ∃ s', exec (.sweepEnd h) s = .next s' ∧ (s'.hoop h).sweep = none ∧
        (s'.hoop h).retired = (s.hoop h).retired.filter (fun x => !freed.contains x) ∧
        (∀ u ∈ s'.tasks, u.hoop = h → u.phase ≠ .saved → ∀ q ∈ u.squashes, q.old = false) ∧ s'.mem = s.mem)

/-- INSTANCE_COMMIT of a complete base instance that holds an exit to a block (R55, R187, R190, R329), and HELD_EXIT_DELIVERY: its
frame writes are applied, its flags and launches join the task's, its staged writes the committed set, the base of its window goes
on by one or the window closes, and its exit comes up for delivery, with its TACT applied, to instruction 0, port A, of the block.
Memory does not change. A delivery waits for squash records of its block and of the context that it enters. -/
def Obligations.InstancesCommit : Prop :=
  (∀ (s : State) (id : Nat) (k : InstKey) (t : Task) (i : Instance) (e : BitVec 3) (w : Out) (tag : Tag) (x : ExitEntry) (blk : Nat)
      (win : Window), s.task? id = some t → t.inst? k = some i → t.phase = .running → t.frozen = .none → t.complete i = true →
    t.window? k.blk k.ctx = some win → win.base = k.iter → s.matrixHolds t k = false → s.baseHolds t k = false → t.launches.length + i.launches.length ≤ 32 →
    (∀ o ∈ t.ops, ∀ f, o.instr ≠ .sbar f) → i.held = some (.exit e w tag) → (t.block? k.blk).bind (fun b => b.exits[e.toNat]?) = some x →
    x.target = some blk → x.tact ≠ .parent → x.tact ≠ .child →
    ∃ s' t', exec (.instanceCommit id k) s = .next s' ∧ s'.mem = s.mem ∧ s'.words = s.words ∧ s'.task? id = some t' ∧
      t'.flags = t.flags ||| i.flags ∧ t'.launches = t.launches ++ i.launches ∧ t'.inst? k = none ∧
      (∀ c, t.context? k.ctx = some c → (t'.context? k.ctx).map (·.frame) = some (i.writes.foldl (fun fr y => putFrame y fr) c.frame)) ∧
      (t'.window? k.blk k.ctx = if t.insts.any (fun y => y.key.blk == k.blk && y.key.ctx == k.ctx && y.key != k) then
        some { win with base := win.base + 1, reach := win.reach - 1 } else none) ∧
      (∀ y ∈ t.staged, y.owner = .inst k → { y with owner := .committed } ∈ t'.staged) ∧
      (∀ y ∈ t.stagedOps, y.inst = k → y.order = none → { y with order := some t.commits } ∈ t'.stagedOps) ∧
      .event (.heldExitDelivery id ⟨.keep, ({ tag with fmt := w.fmt, port := 0, rdir := none } : Tag).act x.tact, BitVec.ofNat 7 blk, w.word⟩) ∈ s'.agenda) ∧
  (∀ (s : State) (id : Nat) (t : Task) (d : Delivery), s.task? id = some t → t.phase = .running → t.frozen = .none → t.ended = false →
    (t.context? d.tag.ctx).isSome →
    (∀ q ∈ t.squashes, ∀ c, (if d.tact = .child then (t.childOf ⟨t.id, d.tag, d.target, none, [], false⟩).map (·.ctx)
      else some d.tag.ctx) = some c → ¬(q.blk = d.target ∧ q.ctx = c)) →
    exec (.heldExitDelivery id d) s = .next (s.freshen.emitTo id .unit s.fresh none d.tact d.tag d.target 0 0 d.tag.fmt [d.word]))

/-- ENTRY_INJECTION of a task without a schedule table, the CONTEXT_GRANT that it asks for, and QUIESCENCE_TIMEOUT (R205, R217,
R219, R325, R326). The entry unit's request waits in the allocator's queue like any other. The one injection takes a context with a
zero frame, passes the cursor on, and delivers a zero word to instruction 0, port A, of block 0 at ITER 0 of that context. A running task that has been quiet for its hoop's count takes F_QUIET, with what its oldest instance lacks; before that
nothing happens. -/
def Obligations.EntryAndQuiescence : Prop :=
  ∀ (s : State) (id : Nat) (t : Task), s.task? id = some t → t.id = id → t.phase = .running → t.frozen = .none → t.ended = false →
    let request : CtxRequest := ⟨id, ⟨0, 0, 0, 0, 0, 0, 0, 0, none⟩, 0, none, [], true⟩
    (t.tcb.sched = 0 → t.entryNext = 0 → exec (.entryInjection id) s = .next (s.push (.contextGrant request))) ∧
    (t.tcb.sched = 0 → t.entryNext = 0 → t.contexts = [] → 0 < t.reserve → (∃ n, s.ctxFree t.hoop n = true) →
      ∃ (n : BitVec 12) (s1 : State), s.ctxFree t.hoop n = true ∧ s1.agenda = s.agenda ∧
        (s1.task? id).map (fun u => (u.contexts, u.entryNext, u.reserve)) =
          some ([⟨n, t.nextSeq, none, 0, none, [], 0, true⟩], 1, t.reserve - 1) ∧
        exec (.contextGrant request) s = .next
          ((s1.emitTo id .unit s.fresh none .keep ⟨n, 0, 0, 0, 0, 0, 0, 0, none⟩ 0 0 0 0 [0]).push (.entryInjection id))) ∧
    (t.quiet < (s.hoop t.hoop).quiet.toNat → exec (.quiescenceTimeout id) s = .next s) ∧
    (∀ i b, (s.hoop t.hoop).quiet.toNat ≤ t.quiet → (t.oldestChain.getLast?).bind t.oldestInst = some i → t.block? i.key.blk = some b →
      ∃ d3, exec (.quiescenceTimeout id) s = .next (s.raise id (.plain F_QUIET (i.key.ctx ++ i.key.iter ++ i.key.blk ++ BitVec.ofBool i.exited)
        (b.storeMask &&& ~~~i.lsids) (b.writeMask &&& ~~~i.fws) d3)))

namespace Sys2Proof.Claims

/-- The arrival bits and the count of a barrier after the sink `me` arrived (R284): with the last of its sinks the count rises
by one and every bit clears. -/
def arrived (me : BitVec 7 × BitVec 7) (b : Barrier) : Barrier :=
  if ∀ k ∈ b.sinks, k ∈ b.arrived ++ [me] then { b with arrived := [], count := b.count + 1 } else { b with arrived := b.arrived ++ [me] }

/-- A set whose sinks' control token performs. -/
def Sinks (i : Instr) (g : Firing) (k : Token) : Prop :=
  controlToken g.a = some k ∧ predicateFalse i g 0 = false ∧ anyNull i g 0 = false

end Sys2Proof.Claims

/-- EOS and BARR (R284, R285): a source emits one control token for every word that performs; a sink emits the token it got,
sets its arrival bit, and with the last of its sinks adds one to the count and clears every bit. A BARRIER token of another
barrier is refused with F_FMT. BWAIT (R287) passes its words on once the count has reached each of them, counting modulo 2^32,
and waits until then. FENCE (R288, R293) passes its words on once every operation issued before it has performed at its scope, and
waits until then; what has passed the ordering point of that scope stays ahead of later accesses within it. An operation whose
words have all finished has performed, and one that waits at a bank has performed at a scope that its memory lies outside.
The model's choices it rests on: log entries 47 and 140. -/
def Obligations.BarriersAndFences : Prop :=
  ∀ (f : StdForm) (s : State) (g : Firing) (t : Task), Claims.Fires s g t →
    let s1 := s.countFire g.task (t.domainOf g.site)
    let me := (g.tag.blk, g.tag.inst)
    (controlToken g.a = none →
      (eosSink f.lit = false → exec (.eos f) s = .next (Claims.emitted (.eos f) g
        (fun j => if performs (.eos f) g j then .data 7 2 else .null) (Claims.counted s g t))) ∧
      (barrSink f.lit = false → exec (.barr f) s = .next (Claims.emitted (.barr f) g
        (fun j => if performs (.barr f) g j then .data 7 (BitVec.ofNat 32 (256 * barrId f.lit + 3)) else .null) (Claims.counted s g t)))) ∧
    (∀ k, let emits := s1.emitControl g f.tact g.tag [f.t0, f.t1] 7 k.words
      (∀ b, eosSink f.lit = true → Claims.Sinks (.eos f) g k → t.phases = b → me ∉ b.arrived →
        exec (.eos f) s = .next (emits.withTask g.task fun u => { u with phases := Claims.arrived me u.phases })) ∧
      (∀ b, barrSink f.lit = true → Claims.Sinks (.barr f) g k → bits (k.words.headD 0) 15 8 = barrId f.lit →
        t.barrier? false (barrId f.lit) = some b → me ∉ b.arrived →
        exec (.barr f) s = .next (emits.withTask g.task fun u =>
          { u with barriers := modifyWhere (fun b => b.ident == barrId f.lit) (Claims.arrived me) u.barriers })) ∧
      (barrSink f.lit = true → controlToken g.a = some k → bits (k.words.headD 0) 15 8 ≠ barrId f.lit →
        exec (.barr f) s = .next (s.raiseFmt g.task g.src k 0x08 (k.words.headD 0)))) ∧
    (controlToken g.a = none → ∀ b, t.barrier? (bwaitPhase f.lit) (barrId f.lit) = some b →
      let reached := ∀ j < g.n, performs (.bwait f) g j = true → (b.count - (operand (.bwait f) g 0 j).word).toNat < 2 ^ 31
      (reached → exec (.bwait f) s = .next (Claims.emitted (.bwait f) g
        (fun j => if performs (.bwait f) g j then operand (.bwait f) g 0 j else .null) (Claims.counted s g t))) ∧
      (¬reached → exec (.bwait f) s = .next s.block)) ∧
    (controlToken g.a = none →
      let sc := fenceScope f.lit
      let passes := fun (s : State) => exec (.fence f) s
      let out := fun j => if performs (.fence f) g j then operand (.fence f) g 0 j else .null
      let performing := ∃ j < g.n, performs (.fence f) g j = true
      (¬performing → passes s = .next (Claims.emitted (.fence f) g out (Claims.counted s g t))) ∧
      (performing → s.fencePending t g.cut sc = false →
        passes s = .next (Claims.emitted (.fence f) g out (Claims.counted (s.promise g.task g.cut sc) g t))) ∧
      (performing → s.fencePending t g.cut sc = true → passes s = .next s.block) ∧
      ((∀ o ∈ t.ops, o.id < g.cut → fenced o.instr = true → ∀ w ∈ o.words, w.stage = .done) → s.fencePending t g.cut sc = false)) ∧
    (∀ o j sc, (o.at j).stage = .queued → t.outside sc (o.at j).pa = true →
      ((∃ f, o.instr = .lock f ∨ o.instr = .qput f ∨ o.instr = .qget f) ∨ ∃ f op, o.instr = .atomsc f op) →
      s.performedAt t o j sc = true)

namespace Sys2Proof.Claims

/-- A notice at the end of its scheduler's ready queue, whose readiness check comes up (R316, R318). -/
def noticed (s : State) (n : Notice) : State :=
  (s.withTower n.tower fun w => { w with
    ready := w.ready ++ [(⟨n.tcb, n.asid, s.time.toNat, (s.tower n.tower).nextSeq, none, none, 0, 0, none⟩ : Ready)]
    nextSeq := (s.tower n.tower).nextSeq + 1 }).push (.readinessCheck n)

end Sys2Proof.Claims

/-- LAUNCH_DECREMENT on a launch line that is well formed (R315, R316): it waits for the earlier decrements of its commit (R329);
COUNT falls by one, and while it is positive nothing else happens; at zero the line's notice goes to its scheduler's ready queue, or
to the host of the egress channel that names the line (R429), unless the part's node is unassigned (R471); below zero the launch
error is logged. READY_NOTICE_WAIT_END queues a notice that found the queue full, or the bring-up not complete (R472).
READINESS_CHECK (R313) makes a task whose TCB is sound ready to be placed, and refuses one whose TCB is not with F_ILL, REASON 2.
The model's choices it rests on: log entry 55. -/
def Obligations.LaunchesAndNotices : Prop :=
  (∀ (s : State) (l : LaunchRef), s.decrementAhead l = true → exec (.launchDecrement l) s = .next s.block) ∧
  (∀ (s : State) (a group : Nat), let w := fun k => s.mem.readWord (a + 4 * k)
    s.decrementAhead ⟨some a, group⟩ = false → (regionOf a).isShared = true → a % 64 = 0 → bitsZero (w 1) 15 2 = true → (w 2).toNat % 64 = 0 → (∀ k < 12, w (4 + k) = 0) →
    s.wordRefusesWrite a = false →
    let s1 := s.plainWrite a (bytesOfNat (w 0 - 1).toNat 4) 0 partWriter
    let v := fun k => s1.mem.readWord (a + 4 * k)
    let n : Notice := ⟨bits (v 1) 1 0, (v 3 ++ v 2 : BitVec 64).toNat, (v 1).extractLsb' 16 16⟩
    (0 < (w 0 - 1).toInt → exec (.launchDecrement ⟨some a, group⟩) s = .next s1) ∧
    (w 0 = 1 → s1.egressChannel a = none → s.up = true → (s1.tower n.tower).ready.length < 4096 →
      exec (.launchDecrement ⟨some a, group⟩) s = .next (Claims.noticed s1 n)) ∧
    (w 0 = 1 → s1.egressChannel a = none → (s.up = false ∨ 4096 ≤ (s1.tower n.tower).ready.length) →
      exec (.launchDecrement ⟨some a, group⟩) s = .next (s1.push (.readyNoticeWaitEnd n))) ∧
    (∀ c, w 0 = 1 → s1.egressChannel a = some c →
      exec (.launchDecrement ⟨some a, group⟩) s = .next (if s1.node = 0x3FFF then s1
        else s1.send (.egress (ingressNode (s1.egcfg.getD c 0)) c (v 3 ++ v 2)))) ∧
    ((w 0 - 1).toInt < 0 → exec (.launchDecrement ⟨some a, group⟩) s = .next (s1.logEvent 0x02 0x3F (w 0 - 1) a))) ∧
  (∀ (s : State) (n : Notice),
    (s.up = true → (s.tower n.tower).ready.length < 4096 → exec (.readyNoticeWaitEnd n) s = .next (Claims.noticed s n)) ∧
    ((s.up = false ∨ 4096 ≤ (s.tower n.tower).ready.length) → exec (.readyNoticeWaitEnd n) s = .next s.block) ∧
    (∀ r ws, (s.tower n.tower).unread n = some r → s.readVaWords n.asid n.tcb 128 = .ok ws →
      (∀ c, tcbOf ws n.asid = some c → exec (.readinessCheck n) s = .next ((s.withTower n.tower fun w => { w with
        ready := w.ready.map fun x => if x.seq = r.seq then { x with checked := some c } else x }).push (.schedulerScan n.tower))) ∧
      (tcbOf ws n.asid = none → ∃ s' x, exec (.readinessCheck n) s = .next s' ∧ .event (.faultQueueAppend n.tower x) ∈ s'.agenda ∧
        x.cause = F_ILL ∧ x.d0.extractLsb' 24 8 = (2 : BitVec 8) ∧ x.tcb = BitVec.ofNat 64 n.tcb)))

/-- SCHEDULER_SCAN (R319, R320, R322): the scheduler's order is that of R318; the first task of it that fits some hoop is placed
there, or no task but the one that holds the scheduler up, on as many free quadrants as its TCB asks for, with the account of its budget (R354), and its start begins with the fetch
of its blocks. AGING_STEP and PREEMPTION_WAIT_ELAPSED (R318, R348): a rise in priority makes the scheduler scan; a task that has
waited for pre-emption takes the hoop with the fewest victims, each of lower priority and not yet committing, reserves their
quadrants, and each victim is frozen in its own mode. -/
def Obligations.TasksPlaced : Prop :=
  ∀ (s : State) (k : Nat),
    ((s.readyOrder k).Pairwise fun a b => s.before (s.tower k) a b = true) ∧
    (∀ r h c, s.up = true → (s.noteHeld k).nextPlaced k = some (r, h) → r.checked = some c → r.saved = none → ∃ s' t,
      exec (.schedulerScan k) s = .next s' ∧ s'.tasks = s.tasks ++ [t] ∧ s'.nextTask = s.nextTask + 1 ∧
      s'.agenda = s.agenda ++ [.event (.blockFetch s.nextTask), .event (.schedulerScan k)] ∧
      (s'.tower k).ready = (s.tower k).ready.filter (fun x => x.seq != r.seq) ∧
      t.id = s.nextTask ∧ t.tcb = c ∧ t.tcbVa = r.tcbVa ∧ t.tower = k ∧ t.hoop = h ∧ h / 16 = k ∧ t.phase = .fetching ∧ t.frozen = .none ∧
      t.quads.length = c.qcnt ∧ (∀ q ∈ t.quads, allows c.qaff q = true ∧ s.quadFree h q = true) ∧
      t.budget = r.budget.getD c.budget ∧ t.account = t.budget * 2 ^ c.px ∧ t.packets = t.budget ∧ t.contexts = [] ∧ t.staged = []) ∧
    (s.up = false → exec (.schedulerScan k) s = .next s) ∧
    (s.up = true → (s.noteHeld k).nextPlaced k = none → exec (.schedulerScan k) s = .next (s.noteHeld k)) ∧
    (∀ r x h, s.heldReady k = some r → s.nextPlaced k = some (x, h) → x = r) ∧
    (∀ r rest, s.heldReady k = none → s.readyOrder k = r :: rest → (s.tower k).holdu ≠ 0 → 4096 * (s.tower k).holdu.toNat ≤ s.waited r →
      k < s.towers.length → (s.noteHeld k).heldReady k = some r) ∧
    (∀ id, exec (.agingStep k id) s = .next (s.push (.schedulerScan k))) ∧
    (s.preemptFor k = none → exec (.preemptionWaitElapsed k) s = .next s) ∧
    (∀ r c h ts, s.preemptFor k = some (r, c) → h ∈ hoopsOf k → s.victimsOn h c r.seq = some ts →
      (∀ h' ∈ hoopsOf k, ∀ us, s.victimsOn h' c r.seq = some us → ts.length < us.length ∨ (ts.length = us.length ∧ h ≤ h')) →
      exec (.preemptionWaitElapsed k) s = .next (ts.foldl (fun s u => s.push (.preemptFreeze u.id u.tcb.pmode))
        { s with reserved := s.reserved ++ ts.flatMap fun u => u.quads.map fun q => (⟨h, q, r.seq⟩ : Reserved) })) ∧
    (∀ h c n ts, s.victimsOn h c n = some ts → ∀ u ∈ ts, u.hoop = h ∧ u.tcb.prio < c.prio ∧ u.phase ≠ .draining ∧ u.phase ≠ .tokens)

/-- The steps of a start (R322): BLOCK_FETCH keeps the images of the task's blocks, and a fetch that does not translate ends the
task; LAUNCH_RESOURCES takes the task's context reserve, barriers and port slots, each as it becomes free; METER_LEVEL levels the next idle
domain: it takes its pending target, or the fill voltage that was saved with the task (R381), and connects the segments of R356, one
where the account fills none to its voltage, or it refuses a task that cannot fill one to 0.50 V (R357), or gives the task its account
in the unit of schedule mode (R354, R361); FILL_COMPLETE pays the fill from the account, and the pump feeds, or every pump stops with
the last of it (R358); PLACEMENT_CHECK lets the task run, or ends it with
F_ILL. A task whose domains differ in mode is refused with F_ILL. -/
def Obligations.TasksStart : Prop :=
  ∀ (s : State) (id : Nat) (t : Task), s.task? id = some t → t.id = id →
    (t.phase = .fetching → t.nextSeq = 0 → (∀ m ms, s.fetchImage t.tcb.asid t.tcb.block = .ok m → s.number t.tcb.asid [m] 0 130 = .ok ms →
        exec (.blockFetch id) s = .next ((s.withTask id fun u =>
          { (if u.nextSeq = 0 then u.withImages ms else { u with images := ms }) with phase := .resources }).push (.launchResources id))) ∧
      (s.fetchImage t.tcb.asid t.tcb.block = .error .xlate → exec (.blockFetch id) s = .next (s.raiseUnstated id .unit F_XLATE)) ∧
      (s.fetchImage t.tcb.asid t.tcb.block = .error .prot → exec (.blockFetch id) s = .next (s.raiseUnstated id .unit F_PROT))) ∧
    (t.phase = .resources → s.unreserved t.hoop < t.tcb.ctxres - t.reserve → ∃ s1 : State, exec (.launchResources id) s = .next s1.block ∧
      (s1.task? id).map (fun u => (u.reserve, u.phase)) = some (t.reserve + s.unreserved t.hoop, .resources)) ∧
    (t.phase = .resources → t.reserve = 0 → t.barriers = [] → t.slots = 0 → t.tcb.ctxres ≤ s.unreserved t.hoop →
      s.barriersHeld t.hoop + t.barrierIds.length ≤ 256 → s.portSlotsHeld t.hoop + t.portSlots ≤ 64 →
      exec (.launchResources id) s = .next ((s.withTask id fun u => { u with
        reserve := u.reserve + t.tcb.ctxres
        barriers := u.barriers ++ t.barrierIds.map (fun b => (⟨b, t.sinksOf false b, [], 0⟩ : Barrier))
        slots := u.slots + t.portSlots
        phase := .levelling }).push (.meterLevel id))) ∧
    (t.phase = .levelling → t.schedule = false → (∀ d ∈ t.domains, (s.domain t.hoop d).mode = false) → t.domains ≠ [] →
      (∀ d n, let x := s.domain t.hoop d
        let vf : BitVec 10 := (t.saved.bind fun w => w.fill[t.domains.idxOf d]?).getD x.mv
        let v := vf.toNat - 420
        let fills := fun (n : Nat) (vmv : BitVec 10) (strokes : Nat) => ∃ s', exec (.meterLevel id) s = .next s' ∧
          s'.agenda = s.agenda ++ [.event (.fillComplete id d)] ∧ s'.domain t.hoop d = { x with
            cur := vf, pend := decide (x.mv ≠ vf), moving := none, st := .fill, nseg := n, schedule := false, kept := false, ran := true
            low := 420, fed := 0, vmv := vmv, owed := strokes } ∧
          (s'.task? id).map (fun u => (u.account, u.delivered, u.phase)) = some (t.account, t.delivered, .levelling)
        t.domains.find? (fun d => (s.domain t.hoop d).st == .idle) = some d → t.hoop < s.hoops.length →
        d < (s.hoop t.hoop).domains.length → 420 < vf.toNat →
        (0 < n → n ≤ segmentsOf d → n * 375 * v ≤ t.account * 256 → (n - 1) * 375 * v < 512 * 2 ^ t.tcb.px →
          (512 * 2 ^ t.tcb.px ≤ n * 375 * v ∨ n = segmentsOf d ∨ t.account * 256 < (n + 1) * 375 * v) →
          fills n vf ((n * 375 * v + 255) / 256)) ∧
        (t.account * 256 < 375 * v → 375 * 80 ≤ t.account * 256 → fills 1 (BitVec.ofNat 10 (420 + t.account * 256 / 375)) t.account) ∧
        (t.account * 256 < 375 * v → t.account * 256 < 375 * 80 → ∃ s1 : State, exec (.meterLevel id) s = .next (s1.raise id
            (.plain F_SHORT 0xE0000000 0xFFFFFFFF (BitVec.ofNat 32 t.marks) (BitVec.ofNat 32 (min t.packets 0xFFFFFFFF)))) ∧
          (s1.task? id) = some t ∧ s1.agenda = s.agenda)) ∧
      (t.domains.find? (fun d => (s.domain t.hoop d).st == .idle) = none → ∃ s', exec (.meterLevel id) s = .next s' ∧
        s'.agenda = s.agenda ++ [.event (.placementCheck id)] ∧ (s'.task? id).map (·.phase) = some .checking)) ∧
    (t.phase = .levelling → t.schedule = false → (∀ d ∈ t.domains, (s.domain t.hoop d).mode = true ∧ (s.domain t.hoop d).st = .idle) →
      t.domains ≠ [] → t.hoop < s.hoops.length → (∀ d ∈ t.domains, d < (s.hoop t.hoop).domains.length) →
      ∃ s', exec (.meterLevel id) s = .next s' ∧ s'.agenda = s.agenda ++ [.event (.placementCheck id)] ∧
        (s'.task? id).map (fun u => (u.account, u.schedule, u.phase)) = some (4096 * t.account, true, .checking) ∧
        ∀ d ∈ t.domains, (s'.domain t.hoop d).st = .feed ∧ (s'.domain t.hoop d).schedule = true ∧
          (s'.domain t.hoop d).cur = (t.saved.bind fun w => w.fill[t.domains.idxOf d]?).getD (s.domain t.hoop d).mv ∧
          (s'.domain t.hoop d).rail = if s.tripped t.hoop then 550 else (s'.domain t.hoop d).cur) ∧
    (∀ d ∈ t.domains, ∀ e ∈ t.domains, t.phase = .levelling → (∀ d ∈ t.domains, (s.domain t.hoop d).st = .idle) →
      (s.domain t.hoop d).mode = false → (s.domain t.hoop e).mode = true →
      exec (.meterLevel id) s = .next (s.raise id (.plain F_ILL (illDetail 0x02 false 0 0x1FF) 0 0 0))) ∧
    (∀ d, t.phase = .levelling → (s.domain t.hoop d).st = .fill → let n := (s.domain t.hoop d).owed
      (s.pumpsStalled = true → exec (.fillComplete id d) s = .next s.block) ∧
      (s.pumpsStalled = false → s.feedcap = 0 → (s.domain t.hoop d).pend = false → n < t.account → exec (.fillComplete id d) s = .next
        ((((({ s with windowFeed := s.windowFeed + n } : State).withTask id fun u => { u with
          account := u.account - n, delivered := u.delivered + n }).withDomain t.hoop d fun x => { x with
            deliv := x.deliv + BitVec.ofNat 64 n, fed := x.fed + n, st := .feed, owed := 0, low := x.vmv }).push (.meterLevel id)))) ∧
      (s.pumpsStalled = false → s.feedcap = 0 → t.account ≤ n → ∃ s', exec (.fillComplete id d) s = .next s' ∧
        s'.agenda = s.agenda ++ [.event (.meterLevel id)] ∧
        (s'.task? id).map (fun u => (u.account, u.delivered)) = some (0, t.delivered + t.account) ∧ (s'.domain t.hoop d).st = .drain ∧
        (s'.domain t.hoop d).fed = (s.domain t.hoop d).fed + t.account ∧ ∀ e ∈ t.domains, (s'.domain t.hoop e).st ≠ .feed)) ∧
    (t.phase = .checking →
      (t.placementFault = none → t.nextSeq = 0 → exec (.placementCheck id) s =
        .next ((s.withTask id fun u => { u with phase := .running }).push (.entryInjection id))) ∧
      (∀ r blk va, t.placementFault = some (r, blk, va) → exec (.placementCheck id) s = .next (s.raise id (.plain F_ILL
        (illDetail r.reason r.inst.isSome (BitVec.ofNat 7 (r.inst.getD 0)) blk) 0 (BitVec.ofNat 32 va) (BitVec.ofNat 32 (va / 2 ^ 32))))))

namespace Sys2Proof.Claims

/-- The voltage that a store of `n` segments reaches with a number of strokes above the floor (R356). -/
def reached (n strokes : Nat) : Nat := 420 + strokes * 256 / (375 * n)

/-- The highest voltage that a domain's store can stand at. -/
def highest (x : Domain) : Nat := min x.vmv.toNat (reached x.nseg x.fed)

/-- The whole strokes that bring `n` segments from the floor to a voltage, rounded up (R355). -/
def strokesTo (n mv : Nat) : Nat := (n * 375 * (mv - 420) + 255) / 256

/-- A pump takes strokes from the account of a task for one of its domains (R354), which then is as `f` says. -/
def fed (s : State) (id h d n : Nat) (f : Domain → Domain) : State :=
  (({ s with windowFeed := s.windowFeed + n } : State).withTask id fun u =>
    { u with account := u.account - n, delivered := u.delivered + n }).withDomain h d fun x =>
      f { x with deliv := x.deliv + BitVec.ofNat 64 n, fed := x.fed + n }

end Sys2Proof.Claims

/-- PUMP_FEED and FLOOR_STOP (R354, R358, R359): a feeding pump takes strokes from the account and holds its store where R358, R462
and R463 let it, and with the last of the account every pump of the task stops; a fall of the target and a stall of the pumps stop it
(R379, R456); a domain that reaches the floor stops its task with F_SHORT. TOPUP_POOL_SERVE and TOPUP_APPLY (R369, R370): the
pool gives the least of what was asked, what is left of the allowance, and its whole packets; the grant joins the account, and
draining domains feed again. TARGET_MOVE_COMPLETE (R379): the new target stands, and a rise in a feeding store is paid for, unless the
feed-cap hold or a trip keeps the store lower.
The model's choices it rests on: log entries 72 and 78. -/
def Obligations.MetersFeed : Prop :=
  (∀ (s : State) (h d n : Nat) (t : Task), s.holder h d = some t → s.task? t.id = some t → (s.domain h d).schedule = false →
    let x := s.domain h d
    let hold := s.holdMv h d
    (s.pumpsStalled = true → exec (.pumpFeed h d n) s = .next s) ∧
    (∀ goal, x.st = .feed → x.moving = some goal → goal.toNat < x.cur.toNat → exec (.pumpFeed h d n) s = .next s) ∧
    (x.st = .feed → s.pumpsStalled = false → x.moving = none → s.feedcap = 0 →
      (n < t.account → hold ≤ x.low.toNat → exec (.pumpFeed h d n) s = .next (Claims.fed s t.id h d n fun y => { y with
        vmv := BitVec.ofNat 10 hold, low := BitVec.ofNat 10 (min hold (Claims.reached y.nseg y.fed)) })) ∧
      (n < t.account → ∃ s', exec (.pumpFeed h d n) s = .next s' ∧ s'.agenda = s.agenda ∧
        (s'.task? t.id).map (fun u => (u.account, u.delivered)) = some (t.account - n, t.delivered + n) ∧
        (s'.domain h d).st = .feed ∧ (s'.domain h d).deliv = x.deliv + BitVec.ofNat 64 n ∧ (s'.domain h d).fed = x.fed + n ∧
        (s'.domain h d).vmv.toNat = hold) ∧
      (t.account ≤ n → ∃ s', exec (.pumpFeed h d n) s = .next s' ∧ (s'.task? t.id).map (·.account) = some 0 ∧
        ∀ e ∈ t.domains, (s'.domain h e).st = if (s.domain h e).st = .feed then .drain else (s.domain h e).st)) ∧
    (x.st = .drain → t.ended = false → exec (.floorStop h d) s =
      .next ((s.withDomain h d fun x => { x with st := .stop, vmv := 420, low := 420 }).stopShort t.id d none))) ∧
  (∀ (s : State) (id op j : Nat) (t : Task) (o : OpRec), Claims.At s id op j .sent t o →
    (∀ g, g = min (operand o.instr o.firing 0 j).word.toNat (min (t.allow - t.granted) (s.pool.toNat / 2 ^ t.tcb.px)) →
      exec (.topupPoolServe id op j) s = .next ((({ s with pool := s.pool - BitVec.ofNat 64 (g * 2 ^ t.tcb.px) }).withTask id fun u =>
        { u with granted := u.granted + g }).push (.topupApply id op j g))) ∧
    (∀ g, t.cause = none → ∃ s1 : State, exec (.topupApply id op j g) s = .next (s1.finishWord id op j [.data 0 (BitVec.ofNat 32 g)]) ∧
      s1.agenda = s.agenda ∧ s1.mem = s.mem ∧
      (s1.task? id).map (fun u => (u.account, u.packets)) =
        some (t.account + g * 2 ^ t.tcb.px * (if t.schedule then 4096 else 1), t.packets + g) ∧
      ∀ d ∈ t.domains, 0 < g → (s1.domain t.hoop d).st = if (s.domain t.hoop d).st = .drain then .feed else (s.domain t.hoop d).st)) ∧
  (∀ (s : State) (h d : Nat) (goal : BitVec 10), let x := s.domain h d
    x.moving = some goal → x.pend = false →
    (x.schedule = true → exec (.targetMoveComplete h d) s = .next (s.withDomain h d fun y =>
      { y with cur := goal, moving := none, rail := if s.tripped h then 550 else goal })) ∧
    (x.schedule = false → (s.holder h d = none ∨ x.st ≠ .feed) →
      (x.st = .feed → s.pumpsStalled = false ∨ goal.toNat ≤ x.cur.toNat) → exec (.targetMoveComplete h d) s =
        .next (s.withDomain h d fun y => { y with cur := goal, moving := none })) ∧
    (∀ t, s.holder h d = some t → s.task? t.id = some t → x.schedule = false → x.st = .feed →
      (goal.toNat ≤ x.cur.toNat → exec (.targetMoveComplete h d) s =
        .next (s.withDomain h d fun y => { y with cur := goal, moving := none, vmv := goal, low := goal })) ∧
      (x.cur.toNat < goal.toNat → s.pumpsStalled = true → exec (.targetMoveComplete h d) s = .next s.block) ∧
      (x.cur.toNat < goal.toNat → s.pumpsStalled = false → s.holdMv h d < goal.toNat → exec (.targetMoveComplete h d) s =
        .next (s.withDomain h d fun y => { y with cur := goal, moving := none })) ∧
      (x.cur.toNat < goal.toNat → s.pumpsStalled = false → goal.toNat ≤ s.holdMv h d → s.feedcap = 0 →
        let lift := Claims.strokesTo x.nseg goal.toNat - Claims.strokesTo x.nseg (Claims.highest x)
        lift < t.account → exec (.targetMoveComplete h d) s =
          .next (Claims.fed s t.id h d lift fun y => { y with cur := goal, moving := none, vmv := goal, low := goal }))))

/-- The leave ceiling (R377, R378): LEAVE_CEILING_RAISE starts the operation at the head of the queue when its step fits under the
ceiling, a LEAVE holding nothing, a command or a stream what it asked for, and else raises the ceiling by one unit toward the need; LEAVE_CEILING_FALL lets it fall to the
committed leave when nothing waits and nothing has started for 1,000 ticks; LEAVE_VIOLATION, where a master draws more than 0.5 A
(4 units) above the leave it holds, ends the task with F_LEAVE and freezes the engine or the node. -/
def Obligations.LeaveCeilings : Prop :=
  ∀ (s : State) (h d : Nat), let x := s.domain h d
    let again := fun (rest : List (Reader × Nat)) (s : State) => if rest = [] then s else s.push (.leaveCeilingRaise h d)
    (∀ r step rest, x.leaves = (r, step) :: rest → s.leaveWanted r = true → s.askingStream r = false →
      (∀ t o f, x.committed + step ≤ x.ceil → s.op? r.task r.op = some (t, o) → o.instr = .leave f → exec (.leaveCeilingRaise h d) s =
        .next (again rest ((s.withDomain h d fun y => { y with leaves := rest, lastStart := s.time.toNat }).finishWord r.task r.op r.j
          [operand (.leave f) o.firing 1 r.j]))) ∧
      (∀ t o, x.committed + step ≤ x.ceil → s.op? r.task r.op = some (t, o) → isCommand o.instr = true → exec (.leaveCeilingRaise h d) s =
        .next (again rest (((s.withDomain h d fun y => { y with leaves := rest, lastStart := s.time.toNat }).withDomain h d fun y =>
          { y with committed := y.committed + min step (if d = 4 then 192 else 96) }).withOpWord r.task r.op r.j fun w =>
            { w with stage := .sent, tick := min step (if d = 4 then 192 else 96) }))) ∧
      (x.ceil < x.committed + step → x.ceil < (if d = 4 then 192 else 96) → exec (.leaveCeilingRaise h d) s =
        .next ((s.withDomain h d fun y => { y with ceil := y.ceil + 1, lastStart := s.time.toNat }).push (.leaveCeilingRaise h d)))) ∧
    (x.leaves = [] → x.lastStart + 1000 ≤ s.time.toNat →
      exec (.leaveCeilingFall h d) s = .next (s.withDomain h d fun y => { y with ceil := y.committed })) ∧
    ((x.leaves ≠ [] ∨ s.time.toNat < x.lastStart + 1000) → exec (.leaveCeilingFall h d) s = .next s) ∧
    (∀ r step rest, x.leaves = (r, step) :: rest → s.leaveWanted r = false → exec (.leaveCeilingRaise h d) s =
      .next (again rest (s.withDomain h d fun y => { y with leaves := rest }))) ∧
    (∀ id t c n (m : Word), s.task? id = some t →
      let leave := (State.masterLeave t m).getD c
      let ends := fun (s : State) => s.raise id (.plain F_LEAVE m (BitVec.ofNat 32 leave) (BitVec.ofNat 32 n) 0)
      (leave = 0 ∨ n ≤ leave + 4 → exec (.leaveViolation id m c n) s = .next s) ∧
      (leave ≠ 0 → leave + 4 < n →
        (bits m 31 30 = 1 → exec (.leaveViolation id m c n) s =
          .next (ends (s.withEngine (bits m 9 8) (bits m 2 0) fun e => { e with frozen := .byViolation }))) ∧
        (bits m 31 30 = 2 → exec (.leaveViolation id m c n) s = .next (ends { s with frozenNodes :=
          (s.frozenNodes.filter fun (y : BitVec 14 × Freeze) => y.1 != m.extractLsb' 0 14) ++ [(m.extractLsb' 0 14, Freeze.byViolation)] })) ∧
        (bits m 31 30 = 3 → exec (.leaveViolation id m c n) s = .next (ends s))))

namespace Sys2Proof.Claims

/-- What the hoop itself answers to an at-once word of the system family. -/
def answered (s : State) (id op j : Nat) (fmt : BitVec 3) (w : Word) : State :=
  (s.withOpWord id op j fun x => { x with stage := .sent }).push (.bankReply id op j ⟨w, 0, 0, fmt, []⟩)

/-- The task that holds the quadrant that a target word names (R334). -/
def Names (s : State) (w : Word) (u : Task) : Prop := ∃ h q, quadTarget w = some (h, q) ∧ s.quadHolder (h, q) = some u

end Sys2Proof.Claims

/-- AT_ONCE_RELEASE for an instruction of the charge and system families, whose instance is the base of its window and which no
earlier word of its set precedes (R257, R328, R331 to R337, R371, R375): GRANT adds to the allowance of the task that holds the target and answers what is left of it, or all ones;
TACK takes the committed set and begins its drain; TRAP takes the trap exception F_TRAP with its code; SRD and SWR read and write
the register, in a task that may, and else fault it; FREEZE freezes another task's quadrants and holds their meters, or an engine
or a node; THAW 0 lets a frozen task go on, and THAW 1 pre-empts it; PREEMPT begins the pre-emption of another task that still
runs. A target that cannot be acted on answers 0.
The model's choices it rests on: log entries 62, 66, 70 and 71. -/
def Obligations.SystemWordsPerform : Prop :=
  ∀ (s : State) (id op j : Nat) (t : Task) (o : OpRec), Claims.At s id op j .ready t o → t.isBase (o.firing.instAt j) = true →
    (∀ w ∈ o.words.take j, w.stage ≠ .ready) →
    let a := (operand o.instr o.firing 0 j).word
    let b := operand o.instr o.firing 1 j
    let does := fun (s' : State) => exec (.atOnceRelease id op j) s = .next s'
    let replies := fun (w : Word) (s' : State) => does (Claims.answered s' id op j 0 w)
    let nobody := ∀ u, ¬Claims.Names s a u
    (∀ f, o.instr = .grant f →
      (∀ u, Claims.Names s a u → replies (BitVec.ofNat 32 (min (u.allow + b.word.toNat) 0xFFFFFFFF - u.granted))
        (s.withTask u.id fun v => { v with allow := min (u.allow + b.word.toNat) 0xFFFFFFFF })) ∧
      (nobody → replies 0xFFFFFFFF s)) ∧
    (∀ f, o.instr = .tack f → t.tacking = none → does (((s.withOpWord id op j fun w => { w with stage := .sent }).withTask id fun u => { u with
      tacking := some ⟨op, j, t.issuedWords, (t.staged.filter fun w => w.owner == .committed).length, t.commits⟩
      rowsSent := false }).push (.commitDrain id))) ∧
    (∀ f, o.instr = .trap f → does (s.raise id (.at F_TRAP o.firing.src a
      ((0 : BitVec 11) ++ o.firing.tag.blk ++ o.firing.tag.inst ++ (0 : BitVec 7)) 0 0))) ∧
    (∀ f, o.instr = .srd f →
      (∀ r hi, a.toNat % 4 = 0 → regOf a.toNat = some (r, hi) → (t.tcb.priv = true ∨ r.taskReadable = true) →
        replies (s.readRegWord a.toNat).1 (s.readRegWord a.toNat).2) ∧
      (a.toNat % 4 ≠ 0 → does (s.raiseUnstated id o.firing.src F_SEG)) ∧
      (∀ r hi, a.toNat % 4 = 0 → t.tcb.priv = false → regOf a.toNat = some (r, hi) → r.taskReadable = false →
        does (s.raiseUnstated id o.firing.src F_PROT))) ∧
    (∀ f, o.instr = .swr f →
      (∀ s1, a.toNat % 4 = 0 → t.tcb.priv = true → s.writeRegWord ⟨a.toNat, false, b.word.zeroExtend 64, false⟩ = some s1 →
        does (Claims.answered s1 id op j b.fmt b.word)) ∧
      (a.toNat % 4 ≠ 0 → does (s.raiseUnstated id o.firing.src F_SEG)) ∧
      (a.toNat % 4 = 0 → t.tcb.priv = false → does (s.raiseUnstated id o.firing.src F_PROT))) ∧
    (∀ f, o.instr = .freeze f →
      (∀ u, Claims.Names s a u → u.id ≠ id → u.frozen = .none → u.schedule = false → s.task? u.id = some u → ∃ s1, replies 1 s1 ∧
        (s1.task? u.id).map (·.frozen) = some .byFreeze ∧ ∀ d ∈ u.domains, ((s.domain u.hoop d).st = .feed ∨ (s.domain u.hoop d).st = .drain) →
          (s1.domain u.hoop d).st = .held) ∧
      (∀ u, Claims.Names s a u → u.id = id → replies 0 s) ∧ (∀ u, Claims.Names s a u → u.id ≠ id → u.frozen ≠ .none → replies 1 s) ∧
      (∀ k e, masterOf a = some (.engine k e) → (s.engine k e).frozen = .none →
        replies 1 (s.withEngine k e fun x => { x with frozen := .byFreeze })) ∧
      (∀ n, masterOf a = some (.node n) → (∀ x ∈ s.frozenNodes, x.1 ≠ n) → replies 1 { s with frozenNodes := s.frozenNodes ++ [(n, .byFreeze)] }) ∧
      (masterOf a = none → replies 0 s)) ∧
    (∀ f, o.instr = .thaw f →
      (∀ u, Claims.Names s a u → u.frozen = .byFreeze → b.word = 0 → s.task? u.id = some u → ∃ s1, replies 1 s1 ∧
        (s1.task? u.id).map (·.frozen) = some .none ∧ ∀ d ∈ u.domains, (s.domain u.hoop d).st = .held →
          (s1.domain u.hoop d).st = if u.account = 0 then .drain else .feed) ∧
      (∀ u, Claims.Names s a u → u.frozen = .byFreeze → b.word = 1 → replies 1 (s.push (.preemptFreeze u.id false))) ∧
      (∀ u, Claims.Names s a u → u.frozen = .none → replies 0 s) ∧ (masterOf a = none → replies 0 s)) ∧
    (∀ f, o.instr = .preempt f →
      (∀ u, Claims.Names s a u → u.id ≠ id → u.phase = .running → b.word.toNat ≤ 2 →
        replies 1 (s.push (.preemptFreeze u.id (if b.word = 0 then u.tcb.pmode else b.word == 2)))) ∧
      (∀ u, Claims.Names s a u → (u.id = id ∨ u.phase = .draining ∨ u.phase = .tokens ∨ u.phase = .aborting) → replies 0 s) ∧ (nobody → replies 0 s))

/-- The writes of system registers (R218, R353, R361, R379, R435, R470 to R472, R478): each takes its value in the fields it names.
A target lies within 550 to 1,000 mV and moves a feeding store; the bobbin's write leaves a pinned domain alone; a quiescence
count is at least 1,000; an invalidation makes the register busy until it is done and removes the translations it names; RUN,
which stays set, starts the schedulers once memory is trained, and the node number stands from then on. A read-only register and an offset that is not
listed ignore a write. -/
def Obligations.RegistersTakeWrites : Prop :=
  ∀ (s : State) (v : BitVec 64) (bob : Bool),
    let val : Word := v.extractLsb' 0 32
    let mv : BitVec 10 := v.extractLsb' 0 10
    let goal : BitVec 10 := if mv.toNat < 550 then 550 else if 1000 < mv.toNat then 1000 else mv
    exec (.pkPoolWrite ⟨0x10, true, v, bob⟩) s = .next { s with pool := v } ∧
    (∀ h d, h < 64 → d < 5 → let x := s.domain h d
      let off := 0x200000 + 0x1000 * h + 0x100 * d
      (x.st = .idle → x.moving = none → exec (.qmTargetWrite ⟨off + 4, false, v, false⟩) s = .next (s.withDomain h d fun y =>
        { y with agentTick := some s.time, mv := goal, cur := goal, pend := false })) ∧
      (x.st = .feed → x.moving = none → x.cur ≠ goal → exec (.qmTargetWrite ⟨off + 4, false, v, false⟩) s = .next ((s.withDomain h d fun y =>
        { y with
          agentTick := some s.time, mv := goal, pend := false, moving := some goal
          fed := if y.schedule = false ∧ y.cur.toNat < goal.toNat then Claims.strokesTo y.nseg (Claims.highest y) else y.fed
          vmv := if y.schedule = false ∧ y.cur.toNat < goal.toNat then goal else y.vmv }).push (.targetMoveComplete h d))) ∧
      ((x.st = .fill ∨ x.st = .drain ∨ x.st = .stop ∨ x.st = .held) → x.moving = none → exec (.qmTargetWrite ⟨off + 4, false, v, false⟩) s = .next (s.withDomain h d
        fun y => { y with agentTick := some s.time, mv := goal, pend := decide (goal ≠ y.cur) })) ∧
      (x.moving.isSome → exec (.qmTargetWrite ⟨off + 4, false, v, false⟩) s = .next (s.withDomain h d fun y =>
        { y with agentTick := some s.time, mv := goal, pend := true })) ∧
      (x.pin = true → exec (.qmTargetWrite ⟨off + 4, false, v, true⟩) s = .next s) ∧
      exec (.qmCtlWrite ⟨off, false, v, bob⟩) s = .next (s.withDomain h d fun y => { y with pin := v.getLsbD 1, mode := v.getLsbD 0 })) ∧
    (∀ h, h < 64 → exec (.hcQuietWrite ⟨0x100000 + 0x1000 * h, false, v, bob⟩) s =
      .next (s.withHoop h fun x => { x with quiet := if val.toNat < 1000 then 1000 else val })) ∧
    (s.tlbBusy = false → exec (.pkTlbinvWrite ⟨0x30, true, v, bob⟩) s = .next ({ s with
      tlbAsid := v.extractLsb' 48 16, tlbVa := v.extractLsb' 7 41, tlbMode := v.extractLsb' 1 2, tlbBusy := true }.push .tlbInvalidateDone)) ∧
    (s.tlbBusy = true → exec (.pkTlbinvWrite ⟨0x30, true, v, bob⟩) s = .next s.block) ∧
    (∀ va, va = s.tlbVa.toNat * 2 ^ 16 →
      exec .tlbInvalidateDone s = .next { s with tlbBusy := false, hoops := s.hoops.map fun h => { h with tlb := h.tlb.filter fun x =>
        !(decide (2 ≤ s.tlbMode.toNat) || (x.asid == s.tlbAsid && (decide (s.tlbMode = 1) ||
          (decide (s.tlbMode = 0) && x.page == va / (if x.large then 2 ^ 25 else 2 ^ 16))))) } }) ∧
    (s.run = false → v.getLsbD 0 = true → s.bringUp = .trained → exec (.pkCtlRun ⟨0x08, false, v, bob⟩) s = .next (({ s with
      run := true, bringUp := .running } : State).pushAll [.schedulerScan 0, .schedulerScan 1, .schedulerScan 2, .schedulerScan 3])) ∧
    (s.run = false → v.getLsbD 0 = true → s.bringUp ≠ .trained → exec (.pkCtlRun ⟨0x08, false, v, bob⟩) s = .next { s with run := true }) ∧
    (s.run = true → exec (.pkCtlRun ⟨0x08, false, v, bob⟩) s = .next s ∧ exec (.pkNodeWrite ⟨0x04, false, v, bob⟩) s = .next s) ∧
    (s.run = false → exec (.pkNodeWrite ⟨0x04, false, v, bob⟩) s = .next { s with node := v.extractLsb' 0 14 }) ∧
    (∀ k, k < 4 → (s.tower k).join.en = false → let logl : BitVec 4 := v.extractLsb' 12 4
      exec (.jtCtlWrite ⟨0x400000 + 0x100 * k, false, v, bob⟩) s = .next (s.withJoin k fun e => { e with
        asid := v.extractLsb' 16 16, logl := if 4 ≤ logl.toNat ∧ logl.toNat ≤ 12 then logl else 12, en := v.getLsbD 0
        configured := !v.getLsbD 0 && e.configured })) ∧
    exec (.registerWrite ⟨0x28, true, v, bob⟩) s = .next { s with asbase := v.extractLsb' 19 30 } ∧
    exec (.registerWrite ⟨0x40, true, v, bob⟩) s = .next { s with el := { s.el with base := v } } ∧
    exec (.registerWrite ⟨0x4C, false, v, bob⟩) s = .next { s with el := { s.el with head := val } } ∧
    (∀ k, k < 4 → exec (.registerWrite ⟨0x10000 + 0x10000 * k, false, v, bob⟩) s = .next (s.withTower k fun t => { t with
      ageu := v.extractLsb' 24 8, pwaitu := v.extractLsb' 16 8, holdu := v.extractLsb' 8 8, pren := v.getLsbD 0 })) ∧
    exec (.registerWrite ⟨0x00, false, v, bob⟩) s = .next s ∧ exec (.registerWrite ⟨0x20, true, v, bob⟩) s = .next s ∧
    exec (.registerWrite ⟨0x34000C, false, v, bob⟩) s = .next s

namespace Sys2Proof.Claims

/-- The newest of a list of staged writes that holds a byte's address. -/
def newest (ws : List Staged) (a : Nat) : Option Byte :=
  ((ws.filter fun w => decide (w.pa ≤ a ∧ a < w.pa + w.bytes.length)).getLast?).map fun w => w.bytes.getD (a - w.pa) 0

/-- Staged writes of one line, all committed, whose words take them and whose line's code is good. -/
def OneLine (s : State) (ws : List Staged) (line : Nat) : Prop :=
  ws ≠ [] ∧ line % 64 = 0 ∧ (∀ w ∈ ws, w.owner = .committed ∧ line ≤ w.pa ∧ w.pa + w.bytes.length ≤ line + 64 ∧ w.bytes ≠ []) ∧
    (∀ k < 16, s.wordRefusesWrite (line + 4 * k) = false) ∧ ∀ w ∈ ws, s.lineGood line w.key = true

end Sys2Proof.Claims

/-- The commit of a task (R298, R300, R306, R317). TASK_COMMIT starts the drain once nothing is outstanding, and ends a task that
holds a lock with F_LOCK. COMMIT_DRAIN writes a line of the staged bytes, the newest of each address, and no other byte; then each
staged write of a structure word, which becomes full and answers its readers; then the tokens go out. COMMIT_TOKEN_SEND sends a
commit token to every receiver of the task's rows, and each owes its acknowledgement. COMMIT_RELEASE waits for them, and then
decrements the task's launch lines and frees the task.
The model's choices it rests on: log entries 61 and 63. -/
def Obligations.TasksCommit : Prop :=
  ∀ (s : State) (id : Nat) (t : Task), s.task? id = some t → t.id = id →
    (t.phase = .ending → t.frozen = .none → t.openStreams = [] → t.tacking = none →
      (t.ops = [] → (∀ l ∈ s.locks, l.task ≠ id) → exec (.taskCommit id) s =
        .next ((s.withTask id fun u => { u with phase := .draining }).push (.commitDrain id))) ∧
      (∀ l, s.locks.find? (fun l => l.task == id) = some l → exec (.taskCommit id) s =
        .next (s.raise id (.plain F_LOCK 0 0 (BitVec.ofNat 32 (l.bank * 65536 + l.slot)) 3)))) ∧
    (t.phase = .draining → t.tacking = none →
      (∀ line, s.mem.wf = true → Claims.OneLine s t.staged line → ∃ s', exec (.commitDrain id) s = .next s' ∧
        (∀ a, s'.mem.read a = (Claims.newest t.staged a).getD (s.mem.read a)) ∧ (s'.task? id).map (·.staged) = some [] ∧
        s'.agenda = s.agenda ++ [.event (.commitDrain id)]) ∧
      (∀ x rest w fmt, t.staged = [] → t.stagedOps = x :: rest → x.order.any (fun k => decide (k < t.commits)) = true → x.what = .write w fmt →
        s.mem.wf = true → ∃ s', exec (.commitDrain id) s = .next s' ∧ s'.mem.readWord x.pa = w ∧
          (∀ b, b < x.pa ∨ x.pa + 4 ≤ b → s'.mem.read b = s.mem.read b) ∧
          (Claims.WordsRise s → s'.wordAt x.pa = some ⟨x.pa, .full, fmt, none, 0, []⟩) ∧
          (∀ y, s.wordAt x.pa = some y → ∀ r ∈ y.readers, .event (.bankReply r.task r.op r.j ⟨w, 0, 0, fmt, []⟩) ∈ s'.agenda) ∧
          (s'.task? id).map (·.stagedOps) = some rest) ∧
      (t.staged = [] → t.stagedOps = [] → exec (.commitDrain id) s =
        .next ((s.withTask id fun u => { u with phase := .tokens }).push (.commitTokenSend id)))) ∧
    (t.phase = .tokens → ∃ s', exec (.commitTokenSend id) s = .next s' ∧ .event (.commitRelease id) ∈ s'.agenda ∧
      (s'.task? id).map (·.receivers) = some (t.receivers.map fun r => { r with owed := true }) ∧
      (∀ r ∈ t.receivers, r.node ≠ s.node → s.node ≠ 0x3FFF → .commitToken r.node ⟨s.node, id⟩ ∈ s'.outbox) ∧
      (∀ r ∈ t.receivers, r.node = s.node → .event (.commitTokenReceive ⟨s.node, id⟩) ∈ s'.agenda)) ∧
    (t.phase = .tokens → t.tacking = none →
      ((∃ r ∈ t.receivers, r.owed = true) → exec (.commitRelease id) s = .next s.block) ∧
      ((∀ r ∈ t.receivers, r.owed = false) → ∃ s', exec (.commitRelease id) s = .next s' ∧ s'.task? id = none ∧
        (∀ a ∈ t.launches, .event (.launchDecrement ⟨some a, id⟩) ∈ s'.agenda) ∧ .event (.schedulerScan t.tower) ∈ s'.agenda))

/-- The abort of a task (R339, R341, R342). TASK_ABORT drops all that the task has staged, with nothing of it written, and comes
to PARK, which waits for the operations that have left, tells the receivers of its rows, sends its fault record with the cause and
its details to the fault queue, and frees the task once that is written, or keeps one frozen by a violation. FAULT_QUEUE_APPEND
writes the 64 bytes of the record at TAIL and passes TAIL on; a full queue counts each record that waits once.
The model's choices it rests on: log entry 64. -/
def Obligations.TasksAbort : Prop :=
  (∀ (s : State) (id : Nat) (t : Task), s.task? id = some t → t.id = id →
    (t.phase = .aborting → t.frozen = .none → t.tacking = none → ∃ s', exec (.taskAbort id) s = .next s' ∧ .event (.park id) ∈ s'.agenda ∧
      (s'.task? id).map (fun u => (u.staged, u.stagedOps)) = some ([], []) ∧
      (t.ops = [] → t.waiting = [] → t.stagedOps = [] → s'.mem = s.mem)) ∧
    (∀ c, t.cause = some c → t.tacking = none →
      (t.phase = .aborting → t.ops = [] → ∃ s', exec (.park id) s = .next s' ∧ .event (.park id) ∈ s'.agenda ∧
        (s'.task? id).map (fun u => (u.phase, u.receivers)) = some (.parking, t.receivers.map fun r => { r with owed := true }) ∧
        ∀ r ∈ t.receivers, r.node ≠ s.node → s.node ≠ 0x3FFF → .abortToken r.node ⟨s.node, id⟩ ∈ s'.outbox) ∧
      (t.phase = .aborting → t.ops ≠ [] → exec (.park id) s = .next s.block) ∧
      (t.phase = .parking → (∀ r ∈ t.receivers, r.owed = false) → c.code ≠ F_PREEMPT → ∃ s' x, exec (.park id) s = .next s' ∧
        .event (.faultQueueAppend t.tower x) ∈ s'.agenda ∧ .event (.park id) ∈ s'.agenda ∧ (s'.task? id).map (·.phase) = some .recording ∧
        x.cause = c.code ∧ x.d0 = c.d0 ∧ x.d1 = c.d1 ∧ x.d2 = c.d2 ∧ x.d3 = c.d3 ∧ x.skind = c.skind ∧ x.src = c.src ∧
        x.hoop = BitVec.ofNat 6 t.hoop ∧ x.qmask = BitVec.ofNat 4 t.qmask ∧ x.asid = t.tcb.asid ∧ x.tcb = BitVec.ofNat 64 t.tcbVa ∧ x.endtick = s.time) ∧
      (t.phase = .recording → s.recordPending t = false →
        (t.frozen = .byViolation → exec (.park id) s = .next (s.withTask id fun u => { u with phase := .kept })) ∧
        (t.frozen ≠ .byViolation → c.code ≠ F_SHORT → ∃ s', exec (.park id) s = .next s' ∧ s'.task? id = none ∧
          .event (.schedulerScan t.tower) ∈ s'.agenda)))) ∧
  (∀ (s : State) (k : Nat) (r : FaultRecord), let q := (s.tower k).fq
    let a := q.base.toNat + 64 * (q.tail.toNat % 2 ^ q.logn.toNat)
    (q.full = false → s.mem.wf = true → (∀ i < 16, s.wordRefusesWrite (a + 4 * i) = false) → k < s.towers.length → ∃ s',
      exec (.faultQueueAppend k r) s = .next s' ∧ (s'.tower k).fq = { q with tail := q.tail + 1 } ∧ s'.mem.readBytes a 64 = recordBytes r ∧
      ∀ b, b < a ∨ a + 64 ≤ b → s'.mem.read b = s.mem.read b) ∧
    (q.full = true → r.waited = true → exec (.faultQueueAppend k r) s = .next s.block) ∧
    (q.full = true → r.waited = false → exec (.faultQueueAppend k r) s = .next ((s.withTower k fun t => { t with
      fq := { t.fq with lost := if t.fq.lost = 0xFFFF then t.fq.lost else t.fq.lost + 1 } }).become (.faultQueueAppend k { r with waited := true }))))

/-- Pre-emption (R344 to R349). PREEMPT_FREEZE halts a task that can be saved, and ends any other with F_PREEMPT; a task that is
committing or leaving goes on. PREEMPT_SAVE waits until the task is at rest; with no work of it at an engine; then the task leaves its hoop as
saved, with what was under way and the fill voltages of its domains (R381), and is ready again, and its contexts retire. RESTORE_TASK gives it new contexts, one for each it was saved with, and it
runs again.
The model's choices it rests on: log entries 67 and 68. -/
def Obligations.TasksPreempted : Prop :=
  ∀ (s : State) (id : Nat) (t : Task), s.task? id = some t → t.id = id →
    ((t.phase = .running ∨ t.phase = .ending) → t.schedule = false →
      (s.saveAborts t = false → ∃ s', exec (.preemptFreeze id true) s = .next s' ∧ .event (.preemptSave id) ∈ s'.agenda ∧
        (s'.task? id).map (fun u => (u.phase, u.cause)) = some (.halting, t.cause) ∧
        ∀ d ∈ t.domains, ((s.domain t.hoop d).st = .feed ∨ (s.domain t.hoop d).st = .drain) → (s'.domain t.hoop d).st = .held) ∧
      (∀ save, save = false ∨ s.saveAborts t = true → ∃ s', exec (.preemptFreeze id save) s = .next s' ∧ .event (.taskAbort id) ∈ s'.agenda ∧
        (s'.task? id).map (fun u => (u.phase, u.cause.map (·.code))) = some (.aborting, some F_PREEMPT))) ∧
    (∀ save, (t.phase = .draining ∨ t.phase = .tokens ∨ t.phase = .aborting ∨ t.phase = .saved) → exec (.preemptFreeze id save) s = .next s) ∧
    (t.phase = .halting →
      ((t.quiet? = false ∨ ∃ w ∈ s.works, w.task = id) → exec (.preemptSave id) s = .next s.block) ∧
      (∀ fl s3 s4, t.quiet? = true → (∀ w ∈ s.works, w.task ≠ id) → (∀ l ∈ s.locks, l.task ≠ id) → t.stagedOps = [] →
        ((s.withdrawWaits id).withdrawReaders id).takeBankFlags t = (fl, s3) →
        State.writeSaveArea (State.withTask s3 id fun u => { u with flags := u.flags ||| fl }) t = .ok s4 →
        ∃ s' sv, exec (.preemptSave id) s = .next s' ∧ .event (.schedulerScan t.tower) ∈ s'.agenda ∧
          (s'.task? id).map (fun u => (u.phase, u.contexts, u.saved)) = some (.saved, [], some sv) ∧ sv.contexts = t.contexts ∧
          sv.quads = t.quads ∧ sv.barriers = t.barriers ∧ sv.fill = t.domains.map (fun d => (s.domain t.hoop d).cur) ∧
          (t.tower < s.towers.length → ∃ r ∈ (s'.tower t.tower).ready, r.saved = some id ∧ r.tick = t.readyTick))) ∧
    (∀ sv, t.phase = .starting → t.saved = some sv → t.contexts = [] → t.ops = [] → t.stagedOps = [] → t.streams = [] →
      (s.circuits.filter fun c => c.source == t.hoop).length ≤ 16 → (∃ m s1, s.freshContexts id sv.contexts = some (m, s1)) →
      ∃ s', exec (.restoreTask id) s = .next s' ∧
        (s'.task? id).map (fun u => (u.phase, u.saved, u.barriers, u.contexts.length)) =
          some (if t.ended then .ending else .running, none, sv.barriers, sv.contexts.length))

/-- Taking an exception (R300, R338 to R340, R349, R365). The first cause of a running task is saved with its details and the tick, the
task stops, and its abort begins; a violation freezes its quadrants. A later cause changes nothing, but for one of a lower code in
the same tick, or any fault where the cause is F_PREEMPT. The shortfall figure is that of the cause that stands. A committing task has the cause logged and goes on. A task that stops short
takes F_SHORT with the packets that its marks so far say it still needs, rounded up.
The model's choices it rests on: log entry 64. -/
def Obligations.ExceptionsTaken : Prop :=
  ∀ (s : State) (id : Nat) (t : Task) (c : Cause), s.task? id = some t → t.id = id →
    ((t.phase = .running ∨ t.phase = .ending ∨ t.phase = .halting) →
      (c.freezes s.node t.phase = false → s.raise id c =
        (s.withTask id fun u => { u with cause := some { c with tick := s.time }, phase := .aborting, shortf := c.figure }).push (.taskAbort id)) ∧
      (c.freezes s.node t.phase = true → t.schedule = false → .event (.taskAbort id) ∈ (s.raise id c).agenda ∧
        ((s.raise id c).task? id).map (fun u => (u.cause, u.phase, u.frozen, u.shortf)) =
          some (some { c with tick := s.time }, .aborting, .byViolation, c.figure))) ∧
    ((t.phase = .draining ∨ t.phase = .tokens) → s.raise id c = s.logEvent 0x03 t.hoop (c.code.zeroExtend 32) 0) ∧
    (∀ c0, t.cause = some c0 → t.phase = .aborting → c0.code ≠ F_PREEMPT →
      (c0.tick ≠ s.time ∨ c0.code.toNat ≤ c.code.toNat → s.raise id c = s) ∧
      (c0.tick = s.time → c.code.toNat < c0.code.toNat →
        ((s.raise id c).task? id).map (fun u => (u.cause, u.shortf)) = some (some { c with tick := s.time }, c.figure))) ∧
    (∀ c0, t.cause = some c0 → t.phase = .aborting → c0.code = F_PREEMPT →
      ((s.raise id c).task? id).map (fun u => (u.cause, u.shortf)) = some (some { c with tick := s.time }, c.figure)) ∧
    c.figure = (if c.code = F_SHORT then c.d1 else 0) ∧
    (∀ d at?, t.phase = .running →
      let left := t.tcb.progress - t.marks
      let need := if t.marks = 0 then 0xFFFFFFFF else if left = 0 then 1 else min ((t.packets * left + t.marks - 1) / t.marks) 0xFFFFFFFE
      ((s.stopShort id d at?).task? id).map (fun u => (u.phase, u.cause.map (fun x => (x.code, x.d1)), u.shortf)) =
        some (.aborting, some (F_SHORT, BitVec.ofNat 32 need), BitVec.ofNat 32 need))

namespace Sys2Proof.Claims

/-! ### The matrix array -/

/-- A word of an operation goes on at a stage, and its event comes up again. -/
def stepped (s : State) (id op j : Nat) (st : OpStage) (e : Instr) : State :=
  (s.withOpWord id op j fun w => { w with stage := st }).push e

/-- The matrix instructions, their slot words, and whether a region word stands on port B and is bounded for a read (R391, R402). -/
def matrixRule (i : Instr) (g : Firing) : Option (List Word × Option Bool) :=
  match i with
  | .oslotClaim _ | .oploadCodebook _ => some ([], none)
  | .oslotRelease _ | .oploadSparse _ => some ([opB i g 0], none)
  | .oploadDense _ => some ([opC i g 0], none)
  | .mma _ => some ([opB i g 0, opC i g 0], none)
  | .accZero _ | .accWrite _ | .accStore _ => some ([], some false)
  | .accRead _ | .accPeek _ => some ([], some true)
  | _ => none

/-- The matrix instructions that read or stage memory (R396, R403). -/
def matrixAtMemory : Instr → Bool
  | .oploadDense _ | .oploadCodebook _ | .accWrite _ | .accStore _ => true
  | _ => false

/-- The event that takes a matrix word on. -/
def matrixNext (i : Instr) (id op j : Nat) : Instr :=
  match i with
  | .mma _ => .mmaComplete id op j
  | _ => .oploadComplete id op j

/-- Nothing of the task stands ahead of a word in issue order (R390), and the words of its set before it have begun (R392). -/
def Foremost (t : Task) (o : OpRec) (j : Nat) : Prop :=
  (∀ x ∈ t.matrixWords, (o.at j).pending ≤ x.2.2) ∧ ∀ w ∈ o.words.take j, w.stage ≠ .waiting ∧ w.stage ≠ .held ∧ w.stage ≠ .ready

/-- An element of a tile as an MMA reads it (R68, R388, R400): +0 on a line whose mask bit is clear, a codebook entry for C4, and a
subnormal as a zero of its sign. -/
def element (t : Tile) (l k : Nat) : FVal :=
  let flush := fun (f : FloatFmt) (w : Nat) => if w / 2 ^ f.fbits % 2 ^ f.ebits = 0 then .fin (w / 2 ^ (f.ebits + f.fbits) % 2 == 1) 0 0 else f.decode w
  if t.mask.getLsbD l = false then .fin false 0 0
  else if t.fmt = 4 then
    flush fmtBF16 (t.book.getD ((t.mem.readWord (t.base + 64 * l + 4 * (k / 8))).toNat / 2 ^ (4 * (k % 8)) % 16) 0).toNat
  else flush (if t.fmt = 3 then fmtH16 else fmtBF16) (natOfBytes (t.mem.readBytes (t.base + 256 * l + 2 * k) 2))

/-- The word and flags after K-group `g` of one accumulator word (R74, R400). -/
def afterGroup (a b : Tile) (k row col g : Nat) (r : Word × BitVec 5) : Word × BitVec 5 :=
  let ps := ((List.range k).filter fun i => i / 8 == g).map fun i => (element a row i, element b col i)
  let x := groupResult (groupSum ps) (a.scale row g) (b.scale col g)
  ((fadd r.1 x.1).1, r.2 ||| x.2 ||| (fadd r.1 x.1).2)

end Sys2Proof.Claims

/-- Every matrix instruction on one word (R391, R392, R402): its slot words are 0 to 63 and its region word is valid, or the task
takes F_SEG with MREASON 1 or 4; it opens its operation, counts its firing, and takes its place in issue order (R390); where it goes to
memory it then comes up to make its reads (R396).
The model's choices it rests on: log entries 79 and 84. -/
def Obligations.MatrixSetsFire : Prop :=
  ∀ (i : Instr) (s : State) (g : Firing) (t : Task) (slots : List Word) (region : Option Bool),
    Claims.matrixRule i g = some (slots, region) → Claims.Opens s g t → g.n = 1 → performs i g 0 = true →
    let s1 := Claims.began i s g t
    let e := Claims.matrixNext i g.task t.nextOp 0
    let fault := fun (r : BitVec 7) (w : Word) => exec i s = .next (s1.raise g.task (.at F_SEG g.src
      ((0 : BitVec 11) ++ g.tag.blk ++ g.tag.inst ++ r) w 0 0))
    let valid := ∀ x, region = some x → regionOk (Claims.opB i g 0) x = true
    ((∀ w ∈ slots, w.toNat ≤ 63) → valid →
      exec i s = .next (Claims.stepped (s1.freshen.withOpWord g.task t.nextOp 0 fun w => { w with pending := s.fresh }) g.task t.nextOp 0
        (if Claims.matrixAtMemory i = true then .waiting else .ready) e)) ∧
    (∀ w, slots.find? (fun w => decide (63 < w.toNat)) = some w → fault 0x01 w) ∧
    (¬valid → fault 0x04 (Claims.opB i g 0))

/-- Slots and codebooks (R388, R389, R393, R395, R397, R398), by OPLOAD_COMPLETE on a word that nothing stands ahead of. CLAIM takes
the lowest FREE slot; RELEASE frees its slot, and faults on a FREE one. DENSE makes its slot LOADING, and then writes its lines, by
rows or transposed, sets its mask, makes it READY and emits its C word. CODEBOOK replaces the sixteen entries. SPARSE opens its load,
and SPARSE_COORDINATE writes one element and sets its line's bit; EOS makes the slot READY and emits the B word.
The model's choices it rests on: log entry 82. -/
def Obligations.SlotsLoad : Prop :=
  (∀ (s : State) (id op j : Nat) (t : Task) (o : OpRec), let b := operand o.instr o.firing 1 j
    let c := operand o.instr o.firing 2 j
    let does := fun (s' : State) => exec (.oploadComplete id op j) s = .next s'
    let x := s.slot t.hoop b.word.toNat
    let free := fun (w : Word) (x : Slot) => does (s.raise id (.at F_SEG o.firing.src ((0 : BitVec 11) ++ o.firing.tag.blk ++ o.firing.tag.inst ++ (2 : BitVec 7)) w
      ((0 : BitVec 24) ++ (0 : BitVec 2) ++ x.fmt ++ (0 : BitVec 3)) 0))
    (Claims.At s id op j .ready t o → Claims.Foremost t o j →
      (∀ f n, o.instr = .oslotClaim f → (∀ m < n, (s.slot t.hoop m).st ≠ .free) → (s.slot t.hoop n).st = .free → n < (s.hoop t.hoop).slots.length →
        does ((s.withSlot t.hoop n fun _ => ⟨.held, 0, 0⟩).finishWord id op j [.data 0 (BitVec.ofNat 32 n), .data 0 (BitVec.ofNat 32 n)])) ∧
      (∀ f, o.instr = .oslotRelease f → x.st ≠ .free →
        does ((s.withSlot t.hoop b.word.toNat fun y => { y with st := .free }).finishWord id op j [b, b])) ∧
      (∀ f, o.instr = .oslotRelease f → x.st = .free → free b.word x) ∧
      (∀ f, o.instr = .oploadDense f → (s.slot t.hoop c.word.toNat).st ≠ .free → does (Claims.stepped
        (s.withSlot t.hoop c.word.toNat fun _ => ⟨.loading, BitVec.ofNat 3 (oploadEfmt f.lit), 0⟩) id op j .sent (.oploadComplete id op j))) ∧
      (∀ f, o.instr = .oploadDense f → (s.slot t.hoop c.word.toNat).st = .free → free c.word (s.slot t.hoop c.word.toNat)) ∧
      (∀ f, o.instr = .oploadCodebook f → does ((s.withHoop t.hoop fun h => { h with
        codebooks := h.codebooks.set (oploadCb f.lit) ((List.range 16).map (halfOf (o.at j).data)) }).finishWord id op j [b, b])) ∧
      (∀ f, o.instr = .oploadSparse f → t.sparse = none → x.st ≠ .free → (∀ w ∈ t.waiting, w.coordinateFor o.firing = false) →
        does (((s.withSlot t.hoop b.word.toNat fun _ => ⟨.loading, BitVec.ofNat 3 (oploadEfmt f.lit), 0⟩).withTask id fun u =>
          { u with sparse := some op }).withOpWord id op j fun w => { w with stage := .sent }))) ∧
    (Claims.At s id op j .sent t o → s.mem.wf = true → t.hoop < s.hoops.length → c.word.toNat < (s.hoop t.hoop).slots.length →
      ∀ f, o.instr = .oploadDense f → (o.at j).data.length = (matrixSpan o.instr o.firing j).length →
      let n := oploadLines f.lit
      let at' := slotBase t.hoop c.word.toNat
      ∃ s1 : State, does (s1.finishWord id op j [c, c]) ∧
        s1.slot t.hoop c.word.toNat = ⟨.ready, (s.slot t.hoop c.word.toNat).fmt, if oploadTr f.lit then BitVec.allOnes 128 else BitVec.ofNat 128 (2 ^ n - 1)⟩ ∧
        (oploadEfmt f.lit ≠ 4 → ∀ l < 128, ∀ k < 128, (oploadTr f.lit = true ∨ l < n) →
          natOfBytes (s1.mem.readBytes (at' + 256 * l + 2 * k) 2) =
            if oploadTr f.lit then (if k < n then (halfOf (o.at j).data (128 * k + l)).toNat else 0) else (halfOf (o.at j).data (128 * l + k)).toNat) ∧
        (oploadEfmt f.lit = 4 → ∀ l < n, (∀ w < 16, s1.mem.readWord (at' + 64 * l + 4 * w) = (o.at j).data.getD (16 * l + w) 0) ∧
          ∀ w < 4, s1.mem.readWord (at' + 8192 + 16 * l + 4 * w) = (o.at j).data.getD (16 * n + 4 * l + w) 0) ∧
        ∀ a, a < at' ∨ at' + 32768 ≤ a → s1.mem.read a = s.mem.read a)) ∧
  (∀ (s : State) (fl : Flight) (t : Task) (o : OpRec) (j : Nat) (w : Word), s.task? fl.task = some t → t.phase = .running → t.schedule = false →
    (t.context? fl.tok.tag.ctx).isSome → t.takesCoordinates fl = some (o, j) → fl.tok.words = [w] →
    let b := operand o.instr o.firing 1 j
    let n := b.word.toNat
    let at' := slotBase t.hoop n
    let line := bits w 13 7
    (fl.tok.tag.fmt ≠ 7 → bits w 15 14 = 0 → s.mem.wf = true → t.hoop < s.hoops.length → n < (s.hoop t.hoop).slots.length →
      ∃ s', exec (.sparseCoordinate fl) s = .next s' ∧ natOfBytes (s'.mem.readBytes (at' + 256 * line + 2 * bits w 6 0) 2) = bits w 31 16 ∧
        (s'.slot t.hoop n).mask = (s.slot t.hoop n).mask ||| (1#128 <<< line) ∧
        ∀ a, (∀ k < 256, a ≠ at' + 256 * line + k) → s'.mem.read a = s.mem.read a) ∧
    (fl.tok.tag.fmt = 7 → w = 1 → exec (.sparseCoordinate fl) s = .next s) ∧
    (fl.tok.tag.fmt = 7 → w = 2 → exec (.sparseCoordinate fl) s = .next (((s.withSlot t.hoop n fun x => { x with st := .ready }).withTask fl.task fun u =>
      { u with sparse := none }).finishWord fl.task o.id j [b, b])))

/-- Accumulators (R74, R400 to R404). MMA on slots of its format asks for the matrix domain's leave, runs once it is granted, and
completes as every word of its accumulator having taken its K-groups one after another, each a sum rounded once and added with one
rounding; slots of another format fault it. ZERO, READ, PEEK with no MMA in flight, WRITE and STORE act on exactly their region:
zeros, the words themselves, the words read from the image, and staged words at their places in the image.
The model's choices it rests on: log entry 81. -/
def Obligations.AccumulatorsChange : Prop :=
  (∀ (a b : Tile) (k row col n : Nat) (w : Word), accumulate a b k row col 0 w = (w, 0) ∧
    (8 * n < k → k ≤ 128 → accumulate a b k row col (n + 1) w = Claims.afterGroup a b k row col n (accumulate a b k row col n w))) ∧
  (∀ (s : State) (id op j : Nat) (t : Task) (o : OpRec), let b := operand o.instr o.firing 1 j
    let c := operand o.instr o.firing 2 j
    (∀ f, o.instr = .mma f → let x := s.slot t.hoop b.word.toNat
      let y := s.slot t.hoop c.word.toNat
      let need : BitVec 3 := BitVec.ofNat 3 (2 + formOf f.lit)
      let does := fun (s' : State) => exec (.mmaComplete id op j) s = .next s'
      let fault := fun (code : BitVec 8) (r : BitVec 7) (w : Word) (z : Slot) => does (s.raise id (.at code o.firing.src
        ((0 : BitVec 11) ++ o.firing.tag.blk ++ o.firing.tag.inst ++ r) w ((0 : BitVec 24) ++ z.st.code ++ z.fmt ++ (0 : BitVec 3)) 0))
      (Claims.At s id op j .ready t o → Claims.Foremost t o j →
        (x.st ≠ .free → y.st ≠ .free → x.fmt = need → y.fmt = need → does (Claims.stepped
          (s.askLeave t.hoop 4 ⟨id, op, j, t.tower⟩ ((28 * (s.domain t.hoop 4).cur.toNat + 799) / 800)) id op j .queued (.mmaComplete id op j))) ∧
        (x.st = .free → fault F_SEG 0x02 b.word x) ∧ (x.st ≠ .free → y.st ≠ .free → x.fmt ≠ need → fault F_FMT 0x03 b.word x)) ∧
      (Claims.At s id op j .sent t o → (o.at j).data = [] →
        does (Claims.stepped (s.withOpWord id op j fun w => { w with data := [1] }) id op j .sent (.mmaComplete id op j))) ∧
      (Claims.At s id op j .sent t o → (o.at j).data ≠ [] → (∀ x ∈ t.matrixWords, (∃ f, x.1.instr = .mma f) → (o.at j).pending ≤ x.2.2) →
        t.hoop < s.hoops.length → ∃ s1 : State, does (s1.finishWord id op j [b, c]) ∧ s1.mem = s.mem ∧ s1.agenda = s.agenda ∧
          (∀ row < 128, ∀ col < 128, (s1.hoop t.hoop).accAt (mmaAcc f.lit) row col =
            (accumulate (s.tiles t f o j).1 (s.tiles t f o j).2 (mmaK f.lit) row col (groupsOf (mmaK f.lit)) ((s.hoop t.hoop).accAt (mmaAcc f.lit) row col)).1) ∧
          (∀ n, n ≠ mmaAcc f.lit → ∀ row col, (s1.hoop t.hoop).accAt n row col = (s.hoop t.hoop).accAt n row col))) ∧
    (Claims.At s id op j .ready t o → Claims.Foremost t o j →
      let does := fun (s' : State) => exec (.oploadComplete id op j) s = .next s'
      let r := regionWord b.word
      (∀ f, o.instr = .accZero f → does ((s.withHoop t.hoop fun h => { h with
        accs := h.accs.filter fun x => !(x.acc == accNum f.lit && r.holds x.row x.col) }).finishWord id op j [b, b])) ∧
      (∀ f, (o.instr = .accRead f ∨ (o.instr = .accPeek f ∧ ∀ x ∈ t.matrixWords, ∀ f', x.1.instr ≠ .mma f')) →
        does ((s.freshen.active id).finishWord id op j (r.places.map fun p => .data 1 ((s.hoop t.hoop).accAt (accNum f.lit) p.1 p.2)))) ∧
      (∀ f, o.instr = .accWrite f → t.hoop < s.hoops.length → ∃ s1 : State, does (s1.finishWord id op j [b, b]) ∧ s1.mem = s.mem ∧
        ∀ row < 128, ∀ col < 128, (s1.hoop t.hoop).accAt (accNum f.lit) row col = if r.holds row col then
          (o.at j).data.getD ((row - r.row) * r.cols + (col - r.col)) 0 else (s.hoop t.hoop).accAt (accNum f.lit) row col) ∧
      (∀ f s2 pas key, o.instr = .accStore f → s.imageAddrs t (accSeg f.lit) c.word true (matrixSpan o.instr o.firing j) = .ok s2 pas key →
        t.stagingUsed t.lowQuad + pas.length ≤ 2048 → ∃ s1 : State, does (s1.finishWord id op j [b, b]) ∧ s1.mem = s.mem ∧
          (s1.task? id).map (·.staged) = some (t.staged ++ (pas.zip r.places).map fun x => (⟨t.lowQuad, .inst (o.firing.instAt j), 31, x.1,
            bytesOfNat ((s.hoop t.hoop).accAt (accNum f.lit) x.2.1 x.2.2).toNat 4, key⟩ : Staged)))))

namespace Sys2Proof.Claims

/-! ### Engines, messages and rewards -/

/-- The instructions whose words come to the engine port (R410, R440). -/
def toPort : Instr → Bool
  | .copy _ | .gather _ | .scatter _ | .allreduce _ | .allgather _ | .reducescatter _ | .broadcast _ | .remwr _ | .rematom _ | .lwopen _ | .lwclose _
  | .epopen _ | .epstep _ | .epend _ | .rwsend _ | .jcfg _ | .lvset _ | .jstat _ => true
  | _ => false

/-- The engine that serves a command: copy 0, gather 1, collective 2. -/
def servedBy : Instr → Option Nat
  | .copy _ => some 0
  | .gather _ | .scatter _ => some 1
  | .remwr _ | .rematom _ | .allreduce _ | .allgather _ | .reducescatter _ | .broadcast _ => some 2
  | _ => none

/-- A command that has no group descriptor. -/
def alone (i : Instr) : Prop := isColl i = false

/-- A sound command at the end of its engine's queue, with its descriptor, having asked for leave when it moves 64 KiB or more
(R376, R412). -/
def atEngine (s : State) (id op j e n : Nat) (t : Task) (d : List Word) : State :=
  let s1 := (s.withOpWord id op j fun w => { w with stage := .queued, data := d }).withEngine t.tower e fun x =>
    { x with queue := x.queue ++ [⟨id, op, j, t.tower⟩] }
  (if 65536 ≤ n then s1.askLeave t.hoop t.lowQuad ⟨id, op, j, t.tower⟩ ((8 * (s1.domain t.hoop t.lowQuad).cur.toNat + 799) / 800) else s1).push
    (.engineCommandStart t.tower e)

/-- A command is at the port and leaves: its instance is the base, and the port holds fewer than 32. -/
def Departs (s : State) (id op j : Nat) (t : Task) (o : OpRec) : Prop :=
  At s id op j .ready t o ∧ t.isBase (o.firing.instAt j) = true ∧ s.portUsed t.hoop < 32

/-- An engine takes up the command `r` of its hoop `h`. -/
def taken (s : State) (k e h : Nat) (r : Reader) : State :=
  s.withEngine k e fun x => { x with queue := x.queue.filter fun q => q != r, running := x.running ++ [r], nextHoop := (h + 1) % 16 }

/-- A message of the part leaves over a link, unless its node is unassigned (R471). -/
def leaves (s : State) (m : OutMsg) : State := if s.node = 0x3FFF then s else s.send m

/-- A node's messages are heard: it is not frozen, and the part accepts traffic. -/
def Heard (s : State) (n : BitVec 14) : Prop := s.nodeHeld n = false

/-- A receiver refuses a message with a reason (R419). -/
def refused (s : State) (m : Sender) (op j : Nat) (reason : BitVec 8) : State := s.rejected m op j reason

end Sys2Proof.Claims

/-- Every command of the engines and of the reward join engine (R409 to R417, R440): its word comes to the engine port at firing. An
engine's command whose control word and descriptor are sound joins the queue of its engine, a collective before its group is read, and
any other faults with F_SEG. LWOPEN
opens a window that is closed and answers 1, or answers 0; LWCLOSE closes a window that holds no provisional word.
The model's choices it rests on: log entry 85. -/
def Obligations.EngineCommandsDepart : Prop :=
  (∀ (i : Instr) (s : State) (g : Firing) (t : Task), Claims.toPort i = true → Claims.Opens s g t → g.n = 1 → performs i g 0 = true →
    exec i s = .next (Claims.stepped (Claims.began i s g t) g.task t.nextOp 0 .ready (.enginePortDepart g.task t.nextOp 0))) ∧
  (∀ (s : State) (id op j : Nat) (t : Task) (o : OpRec), Claims.Departs s id op j t o →
    let does := fun (s' : State) => exec (.enginePortDepart id op j) s = .next s'
    let a := descriptorAccess o j
    let size := match o.instr with
      | .remwr _ => 64
      | .rematom _ => 16
      | _ => 32
    let w := (operand o.instr o.firing 0 j).word
    (∀ e d s2 n, Claims.servedBy o.instr = some e → Claims.alone o.instr → engCtlOk w = true → a.off.toNat % size = 0 →
      s.descriptorReads t o.firing a.seg none (wordOffsets a.off (size / 4)) = .ok (d, s2) → commandBytes o.instr d = some n →
      does (Claims.atEngine s2 id op j e n t d)) ∧
    (∀ d s2 c, isColl o.instr = true → engReservedOk w = true → a.off.toNat % 32 = 0 →
      s.descriptorReads t o.firing a.seg none (wordOffsets a.off 8) = .ok (d, s2) → collectiveOf o.instr d = some c →
      does (Claims.atEngine s2 id op j 2 0 t d)) ∧
    (isColl o.instr = true → (engReservedOk w = false ∨ a.off.toNat % 32 ≠ 0) →
      does ((s.raiseAccess id .port o.firing.tag a F_SEG 0).endCommand id op j)) ∧
    (∀ e, Claims.servedBy o.instr = some e → Claims.alone o.instr → (engCtlOk w = false ∨ a.off.toNat % size ≠ 0) →
      does ((s.raiseAccess id .port o.firing.tag a F_SEG 0).endCommand id op j)) ∧
    (∀ f, o.instr = .lwopen f → let win := (operand o.instr o.firing 1 j).word.toNat
      let g := t.segment (lwSeg w)
      lwopenCtlOk w = true → g.typ = 6 → g.w = true → win ≤ 1023 →
      (s.window? win = none → does (({ s with landWindows := s.landWindows ++
        [(⟨win, lwKind w == 1, g.base, g.limit, g.key, t.tcb.asid⟩ : LandWindow)] }).completeCommand id o j (.data 0 1) (.data 0 1))) ∧
      (∀ x, s.window? win = some x → does (s.completeCommand id o j (.data 0 0) (.data 0 0)))) ∧
    (∀ f, o.instr = .lwclose f →
      (s.window? w.toNat = none → does (s.completeCommand id o j (.data 0 0) .none)) ∧
      (∀ x, s.window? w.toNat = some x → x.asid = t.tcb.asid → s.windowProvisional x = [] → does (({ s with
        landWindows := s.landWindows.filter fun y => y.win != x.win }).completeCommand id o j (.data 0 1) .none)) ∧
      (∀ x, s.window? w.toNat = some x → x.asid = t.tcb.asid → s.windowProvisional x ≠ [] →
        does (Claims.stepped s id op j .queued (.engineCommandComplete id op j)))))

/-- ENGINE_COMMAND_START and ENGINE_COMMAND_COMPLETE (R409, R412 to R415, R418 to R420, R424): an engine that runs fewer than eight takes
up the next command in turn. A move has read its indexes and its sources, and writes its destination line by line; with the last
word it is complete, and emits its B word. REMWR sends every row to every receiver, REMATOM its operation to its node, and a
collective, which first reads its group and asks for leave (R421, R376), its member's contribution to every package that holds a
member; nothing leaves over a link while the part's node is unassigned (R471).
The model's choices it rests on: log entries 86, 92 and 141. -/
def Obligations.EngineCommandsRun : Prop :=
  (∀ (s : State) (k e h : Nat) (r : Reader) (t : Task) (o : OpRec), (s.engine k e).frozen = .none → (s.engine k e).running.length < 8 →
    (s.engine k e).queue ≠ [] → s.nextCommand (s.engine k e) = some (h, r) → s.op? r.task r.op = some (t, o) → o.id = r.op →
    let s0 := Claims.taken s k e h r
    let d := (o.at r.j).data
    let does := fun (s' : State) => exec (.engineCommandStart k e) s = .next s'
    (∀ m s1 ix seen s2 ws lines, movesOf o.instr d = some m →
      (match m.form with
        | .copy _ _ => s1 = s0 ∧ ix = [] ∧ seen = []
        | .gather iseg off | .scatter iseg off =>
          s0.engineReads t o.firing iseg memoryTypes [] (wordOffsets off m.rows) = .ok (ix, seen, s1)) →
      State.engineReads s1 t o.firing m.sseg memoryTypes seen
        ((List.range m.total).map fun n => (m.place (ix.map fun x => x.word) n).1) = .ok (ws, lines, s2) → t.moveRange m = none →
      does (({ s2.withOpWord r.task r.op r.j (fun w => { w with
        stage := .sent, data := d ++ ix.map (fun x => x.word) ++ ws.map (fun x => x.word) }) with
        works := s2.works ++ [(⟨r.task, r.op, r.j, List.range m.total, badPlaces ws, [], false, []⟩ : EngineWork)] } : State).push
          (.engineCommandComplete r.task r.op r.j))) ∧
    (∀ f bop node win off b c, o.instr = .rematom f → atomicOf d = some (bop, node, win, off, b, c) →
      let m : RemoteAtomic := ⟨⟨s.node, r.task⟩, r.op, r.j, t.tcb.asid, node, win, off, bop, b, c⟩
      let s1 := s0.withOpWord r.task r.op r.j fun w => { w with stage := .sent, pending := 1 }
      does (if node = s.node then s1.push (.remoteAtomicReceive m) else Claims.leaves s1 (.atomic m))) ∧
    (∀ f m ws lines s1, o.instr = .remwr f → rowsOf d = some m → t.schedule = false → s.task? r.task = some t →
      s0.engineReads t o.firing m.sseg memoryTypes [] (wordOffsets m.src m.words) = .ok (ws, lines, s1) →
      (∀ x ∈ ws, x.good = true) → s1.node = s.node → ∃ s', does s' ∧
      (∀ n ∈ m.nodes, ∀ x ∈ cutRows m.off (ws.map fun x => x.word) m.words,
        let row : Row := ⟨⟨s.node, r.task⟩, o.id, r.j, t.tcb.asid, n, m.win, x.1, x.2, true⟩
        if n = s.node then .event (.rowLanding row) ∈ s'.agenda else s.node ≠ 0x3FFF → .row row ∈ s'.outbox) ∧
      (s'.op? r.task r.op).map (fun x => (x.2.at r.j).pending) = (s1.op? r.task r.op).map (fun x => if r.j < x.2.words.length then
        (cutRows m.off (ws.map fun x => x.word) m.words).length * m.nodes.length else (x.2.at r.j).pending) ∧
      (s'.task? r.task).map (·.rowsSent) = some true) ∧
    (∀ c ws lines s1, isColl o.instr = true → d.length ≤ 8 → collectiveOf o.instr d = some c →
      s.readGroup t o.firing c = .ok (ws, lines, s1) →
      let bad := does ((s1.raiseAccess r.task .port o.firing.tag (descriptorAccess o r.j) F_SEG 0).endCommand r.task r.op r.j)
      (groupOf ws = none → bad) ∧
      (∀ g, groupOf ws = some g → (t.collectiveOk s.node c g = false → bad) ∧ (t.collectiveOk s.node c g = true →
        let s2 := s1.withOpWord r.task r.op r.j fun w => { w with data := w.data ++ ws }
        does ((if 65536 ≤ c.bytes g.nodes.length then s2.askLeave t.hoop t.lowQuad r ((8 * (s.domain t.hoop t.lowQuad).cur.toNat + 799) / 800)
          else s2).push (.engineCommandStart t.tower 2))))) ∧
    (∀ c g ws lines s1, isColl o.instr = true → collectiveOf o.instr d = some c → groupOf (d.drop 8) = some g → t.schedule = false →
      s.task? r.task = some t →
      s0.engineReads t o.firing c.sseg [1, 2, 3] (s0.groupLines t c g.nodes.length) (wordOffsets c.src (c.sourceWords g)) = .ok (ws, lines, s1) →
      (∀ x ∈ ws, x.good = true) → s1.node = s.node → ∃ s', does s' ∧
      ∀ n ∈ g.nodes, let k : Contribution := ⟨⟨s.node, r.task⟩, o.id, r.j, g.gid, c.round, g.rank, g.nodes.length, c.form, c.op, c.dt, c.len, c.root,
          ws.map (fun x => x.word), false, true⟩
        if n = s.node then .event (.collContribution k) ∈ s'.agenda else s.node ≠ 0x3FFF → .contribution n k ∈ s'.outbox)) ∧
  (∀ (s : State) (id op j : Nat) (t : Task) (o : OpRec) (e : Nat) (m : Moves) (k : EngineWork), Claims.At s id op j .sent t o →
    movesOf o.instr (o.at j).data = some m → engineOf o.instr = some e → (s.engine t.tower e).frozen = .none → s.work? id op j = some k →
    s.choices = [] →
    let rows := if m.indexed then m.rows else 0
    let index := ((o.at j).data.drop 8).take rows
    let word := fun n => ((o.at j).data.drop (8 + rows)).getD n 0
    let b := operand o.instr o.firing 1 j
    let does := fun (s' : State) => exec (.engineCommandComplete id op j) s = .next s'
    (∀ (pa : Nat → Nat) (key : BitVec 12) (first : Nat) (todo : List Nat), k.todo = first :: todo → k.bad = [] → s.mem.wf = true →
      (∀ n ∈ k.todo, pa n % 4 = 0 ∧
        s.checkAccess t none memoryTypes ⟨m.dseg, (m.place index n).2, 4, true, false, 0⟩ = .ok (pa n) key) →
      let here := fun n => pa n / 64 = pa first / 64
      s.lineGood (pa first) key = true → (∀ n ∈ k.todo, here n → s.wordRefusesWrite (pa n) = false) →
      (∀ n ∈ k.todo, ∀ i ∈ k.todo, here n → pa n = pa i → n = i) →
      ∃ s1 : State, (∀ n ∈ k.todo, here n → s1.mem.readWord (pa n) = word n) ∧
        (∀ a, (∀ n ∈ k.todo, here n → a < pa n ∨ pa n + 4 ≤ a) → s1.mem.read a = s.mem.read a) ∧ s1.agenda = s.agenda ∧
        (s1.work? id op j).map (·.todo) = some (k.todo.filter fun n => !decide (here n)) ∧
        does (if (∀ n ∈ k.todo, here n) ∧ k.lines = [] then s1.completeCommand id o j b b else s1.push (.engineCommandComplete id op j))) ∧
    (k.todo = [] → k.lines = [] → does (s.completeCommand id o j b b)) ∧
    (∀ l, k.todo = [] → k.lines = [l] → ∃ s1 : State, does (s1.completeCommand id o j b b) ∧
      s1.mem = (s.performLine (s.commandWriter id) l).mem ∧ s1.agenda = (s.performLine (s.commandWriter id) l).agenda ∧ (s1.work? id op j).map (·.lines) = some []))

/-- What the engines of two packages tell one another (R306, R419, R420, R423 to R426). A row lands in an open window, each word
provisional under its sender, or is refused with a reason; acknowledgements count toward the command, the last one completing it; a
failure ends the task with F_REMOTE. A commit token makes the sender's words full with the values they brought, and an abort token
withdraws them. A remote atomic performs as its bank operation does, and its reply brings the old value. The last contribution of a
collective brings every member its result and tells the members of other packages that theirs has been read (R425), and contributions that do not agree are refused.
The model's choices it rests on: log entries 91, 92 and 142. -/
def Obligations.EngineMessagesTaken : Prop :=
  (∀ (s : State) (row : Row), Claims.Heard s row.sender.node → let m := row.sender
    let does := fun (s' : State) => exec (.rowLanding row) s = .next s'
    (s.window? row.win = none → does (Claims.refused s m row.op row.j 1)) ∧
    (∀ w, s.window? row.win = some w →
      (w.atomic = true → does (Claims.refused s m row.op row.j 2)) ∧
      (w.atomic = false → w.limit < row.off + 4 * row.words.length - 1 → does (Claims.refused s m row.op row.j 3)) ∧
      (w.atomic = false → row.off + 4 * row.words.length - 1 ≤ w.limit →
        (w.asid ≠ row.asid → does (Claims.refused s m row.op row.j 4)) ∧
        (∀ pas, w.asid = row.asid → s.rowAddrs w row.off row.words.length = .ok pas → row.crcOk = true →
          ((∃ a ∈ pas, s.wordTaken (.remote m) a = true) → does (Claims.refused s m row.op row.j 5)) ∧
          ((∀ a ∈ pas, s.wordTaken (.remote m) a = false) → does
            (((pas.zip row.words).foldl (fun s x => s.markWord x.1 (.remote m) x.2) s).landed m row.op row.j)))))) ∧
  (∀ (s : State) (n : BitVec 14) (m : Sender), exec (.landingAck m.task 0 0 n) s = .next (s.withTask m.task fun t => { t with
    receivers := t.receivers.map fun r => if r.node = n then { r with owed := false } else r })) ∧
  (∀ (s : State) (id op j : Nat) (t : Task) (o : OpRec) (n : BitVec 14) (reason : BitVec 8), op ≠ 0 → Claims.At s id op j .sent t o → j < o.words.length →
    (1 < (o.at j).pending → exec (.landingAck id op j n) s = .next ((s.active id).withOpWord id op j fun w => { w with pending := w.pending - 1 })) ∧
    ((o.at j).pending = 1 → (o.at j).fails = [] → ∃ s1 : State, ∃ o1, o1.instr = o.instr ∧ o1.firing = o.firing ∧ s1.mem = s.mem ∧ s1.agenda = s.agenda ∧
      exec (.landingAck id op j n) s = .next (s1.completeCommand id o1 j (operand o.instr o.firing 1 j) (operand o.instr o.firing 1 j))) ∧
    (1 < (o.at j).pending → (o.at j).fails = [] → t.cause = none → t.failing = none → n ≠ s.node → exec (.failureAck id op j n reason) s = .next
      (((s.withOpWord id op j fun w => { w with pending := w.pending - 1, fails := [(n, reason)] }).raise id (.at F_REMOTE .port
        (reason ++ (0 : BitVec 3) ++ o.firing.tag.blk ++ o.firing.tag.inst ++ (0 : BitVec 7)) ((1 : BitVec 16) ++ (0 : BitVec 2) ++ n) 0 0)).withTask id fun u =>
        { u with failing := some (op, j, [(n, reason)]) })) ∧
    (∀ f value flags b node win off x y, o.instr = .rematom f → atomicOf (o.at j).data = some (b, node, win, off, x, y) →
      exec (.remoteAtomicReply id op j value flags) s = .next (((s.active id).raiseFlags id (o.firing.instAt j) flags).completeCommand id o j
        (.data (if b = .afadd ∨ b = .afmin ∨ b = .afmax then 1 else 0) value) (operand o.instr o.firing 1 j)))) ∧
  (∀ (s : State) (m : Sender) (w : WordState), Claims.Heard s m.node → Claims.WordsRise s → w ∈ s.words → w.owner = some (.remote m) →
    (∀ v ∈ s.words, v.owner = some (.remote m) → v = w) → (∀ v ∈ s.words, ∀ ms, v.owner = some (.coll ms) → m ∉ ms) →
    (∀ k < 4, (s.tower k).join.episodes = []) →
    exec (.commitTokenReceive m) s = .next (((({ s with
      collectives := s.collectives.map fun c => if c.sender = m then { c with settled := true } else c
      works := s.works.map fun k => { k with members := k.members.filter fun x => x != m } }) : State).makeFull w.addr w.pend 0).tokenTaken m) ∧
    exec (.abortTokenReceive m) s = .next (((({ s with
      collectives := s.collectives.filter fun c => c.sender != m
      works := s.works.map fun k => if m ∈ k.members ∧ s.landsRows k = true then { k with todo := [] } else k }) : State).unmark
        w.addr).tokenTaken m)) ∧
  (∀ (s : State) (m : RemoteAtomic) (w : LandWindow) (pa : Nat), Claims.Heard s m.sender.node → s.window? m.win = some w →
    (w.atomic = false → exec (.remoteAtomicReceive m) s = .next (Claims.refused s m.sender m.op m.j 2)) ∧
    (w.atomic = true → m.off + 3 ≤ w.limit → w.asid = m.asid → s.translate w.asid ((w.base + m.off) % 2 ^ 57) true (some w.key) = .ok pa →
      (regionOf pa).isShared = true → let old := s.mem.readWord pa
      let r := Claims.bankNew m.bop old m.b m.c
      exec (.remoteAtomicReceive m) s = .next ((s.plainWrite pa (bytesOfNat r.1.toNat 4) w.key partWriter).answer m.sender
        (.remoteAtomicReply m.sender.task m.op m.j old r.2) (.atomicReply m.sender m.op m.j old r.2)))) ∧
  (∀ (s : State) (c : Contribution), Claims.Heard s c.sender.node →
    let mates := s.collectives.filter fun d => d.gid == c.gid && d.round == c.round
    let agrees := fun (d : Contribution) => d.form = c.form ∧ d.redop = c.redop ∧ d.dt = c.dt ∧ d.len = c.len ∧ d.members = c.members ∧ d.root = c.root
    ((∀ d ∈ mates, agrees d) → (∃ r < c.members, r ≠ c.rank ∧ ∀ d ∈ mates, d.rank ≠ r) →
      exec (.collContribution c) s = .next { s with collectives := s.collectives ++ [c] }) ∧
    (∀ d, s.collectives = [d] → mates = [d] → ¬agrees d → exec (.collContribution c) s = .next
      (Claims.refused (Claims.refused { s with collectives := [] } d.sender d.op d.j 0x0A) c.sender c.op c.j 0x0A)) ∧
    (∀ d t o k, s.collectives = [d] → mates = [d] → agrees d → c.members = 2 → d.rank = 0 → c.rank = 1 → c.form = 1 → d.sender.node ≠ s.node →
      c.sender.node = s.node → Claims.At s c.sender.task c.op c.j .queued t o → c.j < o.words.length → collectiveOf o.instr (o.at c.j).data = some k →
      ∃ s', exec (.collContribution c) s = .next s' ∧ s'.collectives = [] ∧
        (s'.op? c.sender.task c.op).map (fun x => ((x.2.at c.j).stage, (x.2.at c.j).data)) =
          some (.sent, (o.at c.j).data ++ (d.words ++ c.words)) ∧
        .event (.engineCommandComplete c.sender.task c.op c.j) ∈ s'.agenda ∧
        (s.node ≠ 0x3FFF → .landingAck d.sender d.op d.j ∈ s'.outbox))) ∧
  (∀ (n : Nat) (d c : Contribution), d.dt = 0 → d.redop = 0 → d.words.length = c.words.length → d.form = 0 →
    collResult [d, c] (combinations n [d, c]) 0 = (d.words.zip c.words).map fun x => x.1 + x.2)

/-- Host channels and links (R317, R427, R428, R430, R482): a host token on a LAUNCH channel decrements the launch line it names,
one on a QUEUE channel is appended to the channel's queue, at once or when an entry is free, and any other is dropped and logged; it
follows the writes that its host sent before it (R308). A good flit ends a run of retries and acknowledges what it carried, a retry is
counted and the sixteenth in a row takes the port down, which answers what was in flight to its partner and not acknowledged with
failures, and loses the host tokens in flight from it; a port that is down trains again.
The model's choices it rests on: log entries 95 and 143. -/
def Obligations.ChannelsAndLinks : Prop :=
  (∀ (s : State) (chan : Nat) (n : BitVec 14) (data : BitVec 64), let v := s.incfg.getD chan 0
    let line := (v.extractLsb' 6 42).toNat * 64
    let mode : BitVec 2 := v.extractLsb' 48 2
    let dropped := s.logEvent 0x08 0x3F ((0 : BitVec 2) ++ n ++ BitVec.ofNat 16 chan) 0
    let does := fun (s' : State) => exec (.hostToken chan n data) s = .next s'
    (s.hostWritesAhead n = true → does s.block) ∧
    (Claims.Heard s n → s.hostWritesAhead n = false →
      (v.extractLsb' 50 14 ≠ n → does dropped) ∧
      (v.extractLsb' 50 14 = n → mode = 1 → does (s.push (.launchDecrement ⟨some data.toNat, 0⟩))) ∧
      (v.extractLsb' 50 14 = n → mode = 0 → does dropped) ∧
      (v.extractLsb' 50 14 = n → mode = 2 → s.hostQueue line = none → does dropped) ∧
      (∀ q, v.extractLsb' 50 14 = n → mode = 2 → s.hostQueue line = some q → q.n ≤ q.used →
        does (s.push (.hostQueueWaitEnd chan ⟨n, data⟩)))) ∧
    (s.hostQueue line = none → exec (.hostQueueWaitEnd chan ⟨n, data⟩) s = .next dropped) ∧
    (∀ q, s.hostQueue line = some q → q.n ≤ q.used → exec (.hostQueueWaitEnd chan ⟨n, data⟩) s = .next s.block) ∧
    (∀ q, s.hostQueue line = some q → q.used < q.n →
      let at' := fun k => ((line : Int) + (q.delta q.tail k).toInt).toNat
      let put := s.appendEntry line 0 q [at' 0, at' 1] [data.extractLsb' 0 32, data.extractLsb' 32 32]
      (Claims.Heard s n → s.hostWritesAhead n = false → v.extractLsb' 50 14 = n → mode = 2 → does put) ∧
        exec (.hostQueueWaitEnd chan ⟨n, data⟩) s = .next put)) ∧
  (∀ (s : State) (p : Nat), let l := s.link p
    exec (.flitReceive p true) s = .next (s.withLink p fun l => { l with
      fails := 0, acked := min (l.acked + 1) (s.outbox.filter fun m => m.toward == some l.peer).length }) ∧ exec (.flitReceive p false) s = .next s ∧
    (l.st = 1 → l.fails < 15 → exec (.flitRetry p) s = .next (s.withLink p fun l => { l with
      retry := if l.retry = 0xFFFFFFFF then l.retry else l.retry + 1, fails := l.fails + 1 })) ∧
    (l.st = 1 → p < s.links.length → ∀ e ∈ [Instr.linkDown p, .flitRetry p], (e = .flitRetry p → 15 ≤ l.fails) → ∃ s', exec e s = .next s' ∧
      (s'.link p).st = 2 ∧ (s'.link p).fails = 0 ∧ (s'.link p).downs = (if l.downs = 0xFFFF then l.downs else l.downs + 1) ∧
      let inFlight := fun (s : State) => s.outbox.filter fun m => m.toward == some l.peer
      (∀ m ∈ (inFlight s).drop l.acked, ∃ x : Sender, ∃ op j, .event (.failureAck x.task op j l.peer 9) ∈ s'.agenda ∧
        (∀ r, m = .row r → x = r.sender ∧ op = r.op ∧ j = r.j)) ∧
      inFlight s' = (inFlight s).take l.acked ∧
      (s'.outbox.filter fun m => m.toward != some l.peer) = s.outbox.filter (fun m => m.toward != some l.peer) ∧
      ∀ c x, .event (.hostToken c l.peer x) ∉ s'.agenda) ∧
    (l.st = 2 → exec (.linkRetrain p) s = .next (s.withLink p fun l => { l with st := 0 })))

namespace Sys2Proof.Claims

/-! ### The reward join engine (R435 to R452) -/

/-- A trajectory id: its low word and its high half (R437). -/
def trajectory (a b : Word) : BitVec 48 := b.extractLsb' 0 16 ++ a

/-- The value JSTAT emits for a listed selector (R452). -/
def joinValue (e : JoinEngine) (sel : Nat) : Option Word :=
  if sel = 0 then some (BitVec.ofNat 32 e.episodes.length)
  else if sel ≤ 11 then e.counters[sel - 1]?
  else if sel = 12 then some (e.flags.zeroExtend 32)
  else if sel = 13 then some e.lv
  else if sel = 14 then some e.nextSeq
  else none

/-- The engine after JSTAT has cleared what it read. -/
def joinCleared (e : JoinEngine) (sel : Nat) : JoinEngine :=
  if 1 ≤ sel ∧ sel ≤ 11 then { e with counters := e.counters.set (sel - 1) 0 } else if sel = 12 then { e with flags := 0 } else e

/-- The scan of R77, from step 0 on: A_t and G_t of every step, with the flags. -/
def scanned (gamma gl : Word) (fin : Bool) (boot : Word) : List (Word × Word) → List (Word × Word) × BitVec 5
  | [] => ([], 0)
  | (v, r) :: rest =>
    let later := scanned gamma gl fin boot rest
    let d := if rest = [] ∧ fin = true then (0, 0) else fmul gamma ((rest.head?.map (·.1)).getD boot)
    let x := fadd r d.1
    let delta := fsub x.1 v
    let y := fmul gl ((later.1.head?.map (·.1)).getD 0)
    let adv := fadd delta.1 y.1
    let ret := fadd adv.1 v
    ((adv.1, ret.1) :: later.1, later.2 ||| d.2 ||| x.2 ||| delta.2 ||| y.2 ||| adv.2 ||| ret.2)

/-- The words of an orphan's entry (R446). -/
def orphanWords (m : RewardMsg) (reason : BitVec 4) (tick : BitVec 64) : List Word :=
  [m.traj.extractLsb' 0 32, BitVec.ofNat 12 m.step ++ reason ++ m.traj.extractLsb' 32 16, m.value, tick.extractLsb' 0 32]

/-- Entry `q.tail` of the engine's queue at `va` lies at `pas`, and the queue's control line, of `q`, at `line`. -/
def EngineQueue (s : State) (e : JoinEngine) (va line : Nat) (q : QueueLine) (pas : List Nat) : Prop :=
  s.translate e.asid va true none = .ok line ∧ (regionOf line).isShared = true ∧ s.queueLine line = some q ∧ pas.length = q.size ∧
  ∀ k < q.size, s.translate e.asid (((va : Int) + (q.delta q.tail k).toInt).toNat % 2 ^ 57) true none = .ok (pas.getD k 0) ∧ (regionOf (pas.getD k 0)).isShared = true

end Sys2Proof.Claims

/-- The commands of the reward join engine at the port of a tower whose engine is not frozen (R438, R439, R442 to R444, R447, R452):
each word emits its status or value and has the effect of its rule on the engine, and only there. EPSTEP's words, version included,
stand in the step record. RWSEND's message goes to the engine that the trajectory names. -/
def Obligations.RewardCommandsPerform : Prop :=
  ∀ (s : State) (id op j : Nat) (t : Task) (o : OpRec), Claims.Departs s id op j t o → (s.engine t.tower 3).frozen = .none →
    let does := fun (s' : State) => exec (.enginePortDepart id op j) s = .next s'
    let k := t.tower
    let e := (s.tower k).join
    let ctx := o.firing.tag.ctx
    let x := fun p => (operand o.instr o.firing p j).word
    let gives := fun (r : Word) (s1 : State) => does (s1.completeCommand id o j (.data 0 r) (.data 0 r))
    let ident := Claims.trajectory (x 0) (x 1)
    let bound := fun (y : Episode) => y.st == .open && y.bound == some (id, ctx)
    let ours := ident.extractLsb' 34 14 = s.node ∧ (ident.extractLsb' 32 2).toNat = k ∧ (x 1).extractLsb' 16 16 = 0
    (∀ f, o.instr = .epopen f →
      ((e.en = false ∨ e.configured = false ∨ e.asid ≠ t.tcb.asid) → gives 4 s) ∧
      (e.en = true → e.configured = true → e.asid = t.tcb.asid → (¬ours → gives 5 s) ∧
        (ours → e.episodes.any bound = true → gives 3 s) ∧
        (ours → e.episodes.any bound = false → (∃ y ∈ e.episodes, y.ident = ident) → gives 1 s) ∧
        (ours → e.episodes.any bound = false → (∀ y ∈ e.episodes, y.ident ≠ ident) →
          (65536 ≤ e.episodes.length → ∃ s1 : State, s1.towers = s.towers ∧ s1.mem = s.mem ∧ gives 2 s1) ∧
          (∀ n s1, s.freeEntry k = (some n, s1) → gives 0 ((s1.withJoin k fun e => { e with
            episodes := e.episodes ++ [(⟨n, ident, .open, x 2, 0, 0, false, 0, 0, [], [], some (id, ctx), 0, false⟩ : Episode)] }).joinCount k .opened 1))))) ∧
    (∀ f, o.instr = .epstep f →
      (e.episodes.find? bound = none → gives 0xFFFFFFFF s) ∧
      (∀ y, e.episodes.find? bound = some y →
        (2 ^ e.logl.toNat ≤ y.steps → gives 0xFFFFFFFF s) ∧
        (∀ pa, y.steps < 2 ^ e.logl.toNat →
          s.translate e.asid (e.base.toNat + y.entry * 2 ^ (e.logl.toNat + 5) + 32 * y.steps + 4 * 0) true none = .ok pa →
          gives (BitVec.ofNat 32 y.steps) ((s.writeWords (s.pageKey e.asid (e.recordVa y.entry y.steps 0)) partWriter
            [(pa, x 0), (pa + 4, x 1), (pa + 8, x 2), (pa + 12, y.version)]).withEpisode k y.entry fun y => { y with steps := y.steps + 1 })))) ∧
    (∀ f, o.instr = .epend f →
      (e.episodes.find? bound = none → gives 1 s) ∧
      (∀ y, e.episodes.find? bound = some y → s.episode? k y.entry = some y → (y.steps = 0 → gives 0 (s.abandon k y.entry)) ∧
        (∀ vs, y.steps ≠ 0 → s.slotViews k y.entry 0 y.steps = .ok vs →
          let s1 := ((s.withEpisode k y.entry fun y => { y with
            st := .closed, bound := none, boot := x 0, fin := x 1 != 0, seq := e.nextSeq, deadline := s.time.toNat + 1024 * e.tout }).withJoin k
              fun e => { e with nextSeq := e.nextSeq + 1, unresolved := e.unresolved ++ [e.nextSeq] }).joinCount k .closed 1
          ((∃ v ∈ vs, v ≠ .full) → gives 0 s1) ∧
          ((∀ v ∈ vs, v = .full) → gives 0 ((s1.withEpisode k y.entry fun y => { y with st := .scan }).push (.episodeScan k y.entry)))))) ∧
    (∀ f, o.instr = .rwsend f → (x 1).extractLsb' 16 4 = 0 →
      let node : BitVec 14 := ident.extractLsb' 34 14
      let m : RewardMsg := ⟨⟨s.node, id⟩, op, j, t.tcb.asid, ident, ((x 1).extractLsb' 20 12).toNat, x 2⟩
      let s1 := (s.withTask id fun t => { t.addReceiver node with rowsSent := true }).withOpWord id op j fun w => { w with stage := .sent, pending := 1 }
      does (if node = s.node then s1.push (.rewardArrival m) else Claims.leaves s1 (.reward node m))) ∧
    (∀ f, o.instr = .lvset f → (t.tcb.asid ≠ e.asid → gives 0 s) ∧ (t.tcb.asid = e.asid → gives 1 (s.withJoin k fun e => { e with lv := x 0 }))) ∧
    (∀ f, o.instr = .jstat f → let sel := ((x 0).extractLsb' 0 8).toNat
      let clr := (x 0).getLsbD 8
      ((14 < sel ∨ (x 0).extractLsb' 9 23 ≠ 0 ∨ t.tcb.asid ≠ e.asid) → gives 0xFFFFFFFF s) ∧
      (∀ v, (x 0).extractLsb' 9 23 = 0 → t.tcb.asid = e.asid → Claims.joinValue e sel = some v → (clr = true → 1 ≤ sel ∧ sel ≤ 12) →
        gives v (if clr then s.withJoin k fun e => Claims.joinCleared e sel else s))) ∧
    (∀ f d s2, o.instr = .jcfg f → let a := descriptorAccess o j
      let w := fun n => d.getD n 0
      let finite := fun (v : Word) => v.extractLsb' 23 8 ≠ 0xFF
      jcfgCtlOk (controlWord o j) = true → a.off.toNat % 32 = 0 → s.descriptorReads t o.firing a.seg none (wordOffsets a.off 8) = .ok (d, s2) →
      s2.towers = s.towers → finite (w 0) → finite (w 1) → w 2 ≠ 0 → (w 3).extractLsb' 2 14 = 0 →
      ((t.tcb.asid ≠ e.asid ∨ e.en = false ∨ e.episodes ≠ []) → gives 0 s2) ∧
      (t.tcb.asid = e.asid → e.en = true → e.episodes = [] →
        s2.queueFits e.asid (w 5 ++ w 4).toNat none 3 0x1240 = true → s2.queueFits e.asid (w 7 ++ w 6).toNat (some 14) 2 0x0040 = true →
        gives 1 (s2.withJoin k fun e => { e with
          configured := true, gamma := w 0, lambda := w 1, gl := (fmul (w 0) (w 1)).1, flags := (fmul (w 0) (w 1)).2, tout := (w 2).toNat
          maxlag := ((w 3).extractLsb' 16 16).toNat, ready := (w 3).getLsbD 1, truncate := (w 3).getLsbD 0, lqva := w 5 ++ w 4, oqva := w 7 ++ w 6
          nextSeq := 0, unresolved := [], counters := List.replicate 11 0 })))

/-- The life of an episode after its close (R445 to R450): a reward that arrives is refused, becomes an orphan, or stands provisionally in
its slot; at its deadline an entry expires, is dropped, is cut at its first empty slot, or is scanned; the scan leaves A_t and G_t of
R77; and at its turn, under READY as it is scanned, an entry is judged once, and found stale, or it appends its learner records one after
another and is free. -/
def Obligations.EpisodesJoin : Prop :=
  (∀ (s : State) (m : RewardMsg), Claims.Heard s m.sender.node → let k := (m.traj.extractLsb' 32 2).toNat
    let e := (s.tower k).join
    let does := fun (s' : State) => exec (.rewardArrival m) s = .next s'
    let orphaned := fun (reason : BitVec 4) => does ((s.orphan k m reason).landed m.sender m.op m.j)
    (s.engine k 3).frozen = .none →
    ((e.en = false ∨ e.configured = false) → does (Claims.refused s m.sender m.op m.j 0x0B)) ∧
    (e.en = true → e.configured = true → (m.asid ≠ e.asid → does (Claims.refused s m.sender m.op m.j 4)) ∧
      (m.asid = e.asid → (∀ y ∈ e.episodes, y.ident ≠ m.traj) → orphaned 1) ∧
      (∀ y, m.asid = e.asid → e.episodes.find? (fun y => y.ident == m.traj) = some y →
        let late := y.st ≠ .open ∧ y.deadline < s.time.toNat
        (late → orphaned 4) ∧ (¬late → y.steps ≤ m.step → orphaned 2) ∧
        (∀ a, ¬late → m.step < y.steps → s.recordPa k y.entry m.step 4 true = .ok a →
          (∀ w, s.wordAt a = some w → w.code ≠ .deferred → orphaned 3) ∧
          ((∀ w, s.wordAt a = some w → w.code = .deferred) → does ((s.markWord a (.remote m.sender) m.value).landed m.sender m.op m.j)))))) ∧
  (∀ (s : State) (k line : Nat) (m : RewardMsg) (reason : BitVec 4) (q : QueueLine) (pas : List Nat), let e := (s.tower k).join
    Claims.EngineQueue s e e.oqva.toNat line q pas → s.orphan k m reason =
      (if q.used < q.n then (s.appendEntry line (s.pageKey e.asid e.oqva.toNat) q pas (Claims.orphanWords m reason s.time)).joinCount k .orphans 1
       else s.joinCount k .discarded 1)) ∧
  (∀ (s : State) (k n : Nat) (y : Episode), s.episode? k n = some y → let e := (s.tower k).join
    let does := fun (s' : State) => exec (.episodeDeadline k n) s = .next s'
    let expired := s.withEpisode k n fun y => { y with st := .expired }
    ((y.st ≠ .closed ∨ s.time.toNat ≤ y.deadline) → does s) ∧
    (∀ vs, y.st = .closed → y.deadline < s.time.toNat → s.slotViews k n 0 y.steps = .ok vs →
      ((∀ v ∈ vs, v = .full) → does ((expired.withEpisode k n fun y => { y with st := .scan }).push (.episodeScan k n))) ∧
      (.provisional ∈ vs → does expired) ∧
      (∀ f, .provisional ∉ vs → vs[f]? = some .empty → (∀ i < f, vs[i]? = some .full) →
        ((e.truncate = false ∨ f = 0) → does ((expired.joinCount k .dropped 1).freeEpisode k n)) ∧
        (∀ a, e.truncate = true → f ≠ 0 → s.recordPa k n f 0 false = .ok a → does
          ((((expired.joinCount k .truncated 1).withEpisode k n fun y => { y with steps := f, boot := s.mem.readWord a, fin := false }).withEpisode k n
            fun y => { y with st := .scan }).push (.episodeScan k n)))))) ∧
  (∀ (s : State) (k n : Nat) (y : Episode) (vs rs : List Word), s.episode? k n = some y → y.st = .scan →
    s.recordWords k n 0 0 y.steps = .ok vs → s.recordWords k n 4 0 y.steps = .ok rs → let e := (s.tower k).join
    let r := Claims.scanned e.gamma e.gl y.fin y.boot (vs.zip rs)
    let stale := decide ((e.maxlag : Int) < (e.lv - y.version).toInt)
    let s1 := ((s.freshen.withEpisode k n fun y => { y with
      st := .held, adv := r.1.map (·.1), ret := r.1.map (·.2), turn := s.fresh }).withJoin k fun e => { e with flags := e.flags ||| r.2 }).push
        (.episodeRelease k n)
    (e.ready = false → exec (.episodeScan k n) s = .next s1) ∧
    (e.ready = true → stale = false → exec (.episodeScan k n) s = .next (s1.withEpisode k n fun y => { y with judged := true })) ∧
    (e.ready = true → stale = true → exec (.episodeScan k n) s = .next ((s1.joinCount k .stale 1).freeEpisode k n))) ∧
  (∀ (s : State) (k n : Nat) (y : Episode), s.episode? k n = some y → y.st = .held → let e := (s.tower k).join
    let does := fun (s' : State) => exec (.episodeRelease k n) s = .next s'
    let stale := decide ((e.maxlag : Int) < (e.lv - y.version).toInt)
    (e.turnOf y = false → does s.block) ∧
    (e.turnOf y = true → y.judged = false → stale = true → does (((s.joinCount k .stale 1).freeEpisode k n).push (.episodeRelease k n))) ∧
    (e.turnOf y = true → y.judged = false → stale = false →
      does ((s.withEpisode k n fun y => { y with judged := true }).push (.episodeRelease k n))) ∧
    (e.turnOf y = true → y.judged = true → (y.adv = [] ∨ y.ret = []) → does ((s.joinCount k .released 1).freeEpisode k n)) ∧
    (∀ adv a ret g l c v line q pas, e.turnOf y = true → y.judged = true → y.adv = a :: adv → y.ret = g :: ret →
      let step := y.steps - y.adv.length
      s.recordWords k n 1 step 1 = .ok [l] → s.recordWords k n 2 step 1 = .ok [c] → s.recordWords k n 3 step 1 = .ok [v] →
      Claims.EngineQueue s e e.lqva.toNat line q pas →
      (q.n ≤ q.used → does s.block) ∧
      (q.used < q.n → does ((((s.appendEntry line (s.pageKey e.asid e.lqva.toNat) q pas
        [y.ident.extractLsb' 0 32, BitVec.ofNat 12 step ++ (0 : BitVec 4) ++ y.ident.extractLsb' 32 16, a, g, l, c, v, y.seq]).joinCount k .records 1).withEpisode
          k n fun y => { y with adv := adv, ret := ret }).push (.episodeRelease k n)))))

namespace Sys2Proof.Claims

/-! ### The package -/

/-- What a reset leaves (R472): no task and no firmware, every record of the towers, the hoops and the links at reset, and memory as it was. -/
def IsReset (s s' : State) (cause : BitVec 3) : Prop :=
  s'.tasks = [] ∧ s'.towers = State.reset.towers ∧ s'.hoops = State.reset.hoops ∧ s'.links = State.reset.links ∧ s'.bobbin = State.reset.bobbin ∧
  s'.bringUp = .reset ∧ s'.run = false ∧ s'.node = 0x3FFF ∧ s'.time = 0 ∧ s'.locks = [] ∧ s'.trips = [] ∧ s'.feedcap = 0xAF0 ∧ s'.el = State.reset.el ∧
  s'.verif = false ∧ s'.rstcause = (if s.refusedNext then 5 else cause) ∧ s'.mem = s.mem ∧ s'.words = s.words ∧ ∀ x ∈ s'.agenda, x ∈ s.agenda

/-- The sixteenths of a degree that sensor `n` of the package reads. -/
def t16 (s : State) (n : Nat) : Nat := (s.sensors.getD n ⟨false, 0, 0⟩).t16.toNat

/-- A reading is 16 × T rounded half up, saturated (R457). `c30` is below `c100`. -/
def Reads (v : Nat) (c c30 c100 : Nat) : Prop :=
  let span : Int := (c100 : Int) - c30
  let twice : Int := 2 * (16 * (30 * span + 70 * ((c : Int) - c30))) + span
  (twice < 0 → v = 0) ∧ (2 * span * 4096 ≤ twice → v = 0xFFF) ∧
    (0 ≤ twice → twice < 2 * span * 4096 → 2 * span * v ≤ twice ∧ twice < 2 * span * (v + 1))

/-- The clock at rest: no task, no bounded wait, no engine's episode, no ceiling of leave and no control period has anything that a tick
concerns. -/
def AtRest (s : State) : Prop :=
  s.tasks = [] ∧ s.up = false ∧ s.queueWaits = [] ∧ s.bobbin.due = false ∧ (∀ k < 4, (s.tower k).join.episodes = []) ∧
  ∀ h < 64, ∀ d < 5, (s.domain h d).ceil = (s.domain h d).committed

/-- What a tick begins by itself (R457, R462). -/
def begins (n : Nat) : List Item :=
  (if n % 10000 = 0 then [.event .feedWindow] else []) ++ if n % 100000 = 0 then [.event .sensorSample] else []

/-- A domain as the snapshot of a control period finds it: what it fired and drew since the last one (R459). -/
def Snapshot (x y : Domain) : Prop :=
  y.fired = x.fire - x.fireSeen ∧ y.drew = x.deliv - x.delivSeen ∧ y.fireSeen = x.fire ∧ y.delivSeen = x.deliv ∧ y.retnSeen = x.retn ∧
  y.ranLast = x.ran ∧ y.fire = x.fire ∧ y.deliv = x.deliv ∧ y.retn = x.retn ∧ y.mv = x.mv ∧ y.st = x.st

end Sys2Proof.Claims

/-- The clock, the reset and bring-up of the package (R6, R472 to R475, R482): a tick advances the time and begins what falls due; a reset loses every
task, and keeps memory, until the training of DRAM clears it; firmware is loaded when its three checks pass; an attestation is signed
over the report that carries the nonce; a new key makes the lines of the old one unreadable; a link trains once bring-up is complete. A
control period begins with its snapshot.
The model's choices it rests on: log entries 4, 109, 110, 111 and 138. -/
def Obligations.PackageComesUp : Prop :=
  (∀ s : State, ∃ s', exec .packageTick s = .next s' ∧ s'.time = s.time + 1) ∧
  (∀ s : State, Claims.AtRest s → let n := (s.time + 1).toNat
    (n % 1000000 ≠ 0 → exec .packageTick s = .next { s with time := s.time + 1, agenda := s.agenda ++ Claims.begins n }) ∧
    (n % 1000000 = 0 → s.bobbin.beat ≠ s.bobbin.lastBeat → s.bobbin.loaded = false → exec .packageTick s = .next { s with
      time := s.time + 1, agenda := s.agenda ++ Claims.begins n, bobbin := { s.bobbin with lastBeat := s.bobbin.beat, stale := 0 } }) ∧
    (n % 1000000 = 0 → s.bobbin.beat ≠ s.bobbin.lastBeat → s.bobbin.loaded = true → ∃ s', exec .packageTick s = .next s' ∧
      s'.time = s.time + 1 ∧ s'.agenda = s.agenda ++ Claims.begins n ++ [.event .controlPeriod] ∧ s'.bobbin = { s.bobbin with
        lastBeat := s.bobbin.beat, stale := 0, due := true, writes := none, seen := s.fresh, temps := s.sensors.map fun x => x.t16 } ∧
      ∀ h < 64, ∀ d < 5, Claims.Snapshot (s.domain h d) (s'.domain h d)) ∧
    (n % 1000000 = 0 → s.bobbin.beat = s.bobbin.lastBeat → s.bobbin.stale = 3 → ∃ s', exec .packageTick s = .next s' ∧
      .event .watchdogFire ∈ s'.agenda)) ∧
  (∀ (s : State) (c : BitVec 3), (1 ≤ c.toNat ∧ c.toNat ≤ 4 → ∃ s', exec (.resetPackage c) s = .next s' ∧ Claims.IsReset s s' c)) ∧
  (∀ s : State, s.bringUp = .firmware → ∃ s', exec .dramTrain s = .next s' ∧ s'.words = [] ∧ s'.lineKeys = [] ∧ s'.keyGens = [] ∧
    s'.bringUp = (if s.run then .running else .trained) ∧ (∀ a, (regionOf a).structured = true → s'.mem.read a = 0) ∧
    ∀ h < s.hoops.length, ∀ d < (s.hoop h).domains.length, let y := s'.domain h d
      y.vmv = 420 ∧ y.low = 420 ∧ y.deliv = (s.domain h d).deliv + BitVec.ofNat 64 (segmentsOf d * 39375 / 64)) ∧
  (∀ s : State, s.bringUp ≠ .firmware → exec .dramTrain s = .next s) ∧
  (∀ (s : State) (m : FirmwareImage), let digest := bigEndian m.digest.toNat 32
    exec (.firmwareLoad m) s = .next (if sha256 (Config.keyEncoding m.modulus) = bigEndian Config.fusedKeyDigest.toNat 32 ∧
        rsaVerify m.modulus m.signature digest = true ∧ sha256 m.code = digest then
      { s with verif := true, bobbin := { s.bobbin with code := m.code, loaded := true }
               bringUp := if s.bringUp = .reset then .firmware else s.bringUp }
    else { s with refusedNext := true, outbox := s.outbox ++ [.firmwareRefused] })) ∧
  (∀ (s : State) (nonce : BitVec 256), s.bobbin.loaded = true →
    let body := bytesOfNat nonce.toNat 32 ++ bytesOfNat ((if s.verif then 0x4C40B001 else 0x4C40B000 : Word)).toNat 4 ++ bytesOfNat s.node.toNat 4 ++
      bigEndian Config.romDigest.toNat 32 ++ sha256 s.bobbin.code ++ bigEndian Config.fuseDigest.toNat 32
    exec (.attestationRequest nonce) s = .next { s with fresh := s.fresh + 1, outbox := s.outbox ++ [.attestation (body ++
      rsaSign Config.attestModulus Config.attestExponent (sha256 body) (bigEndian (Config.attestSalt s.fresh).toNat 32)) Config.attestCertificate] }) ∧
  (∀ (s : State) (x : BitVec 12), exec (.keyInstall x false) s = .next s ∧ ∃ g, exec (.keyInstall x true) s = .next { s with keyGens := g } ∧
    (∀ y, State.keyGen { s with keyGens := g } y = s.keyGen y + if y = x then 1 else 0) ∧
    (∀ a y, (regionOf a).isDram = true → s.lineGood a y = true →
      State.lineGood { s with keyGens := g } a y = decide (y ≠ x))) ∧
  (∀ (s : State) (p : Nat) (n : BitVec 14), let l := s.link p
    (s.up = true → (l.st = 0 ∨ l.st = 2) → exec (.linkTrained p n) s = .next (s.withLink p fun l => { l with st := 1, peer := n, fails := 0 })) ∧
    ((s.up = false ∨ l.st = 1) → exec (.linkTrained p n) s = .next s))

/-- System agents and scrubs (R4, R291, R408, R431, R469, R470, R480): an agent's write stores its bytes in memory, or writes the register it
names; a read answers the bytes, poisoned where a line's code fails; an address with no device is dropped and logged, and operand
memory ignores a write. A scrub's finding is logged, and a task whose placed copy, or another store of whose state, is lost takes F_ECC
(R481), as a line of DRAM or shared memory is lost by being poisoned.
The model's choices it rests on: log entries 113, 114, 116, 117 and 118. -/
def Obligations.AgentsAndScrubs : Prop :=
  (∀ (s : State) (agent : BitVec 14) (pa : Nat), (agent = 0x3FFF ∨ Claims.Heard s agent) →
    (∀ bytes, let n := bytes.length
      let does := fun (s' : State) => exec (.systemAgentWrite agent pa bytes) s = .next s'
      (reachOf pa n = .memory → n ≠ 0 → pa % 64 + n ≤ 64 → s.mem.wf = true → s.lineGood pa 0 = true →
        (∀ k < n, s.wordRefusesWrite ((pa + k) / 4 * 4) = false) → ∃ s' : State, does s' ∧
          (∀ k < n, some (s'.mem.read (pa + k)) = bytes[k]?) ∧ ∀ a, a < pa ∨ pa + n ≤ a → s'.mem.read a = s.mem.read a) ∧
      (reachOf pa n = .operand → does s) ∧
      (∀ (w : Word) s1, bytes = bytesOfNat w.toNat 4 → reachOf pa 4 = .registers → pa % 4 = 0 →
        s.writeRegWord ⟨pa - registerBase, false, w.zeroExtend 64, false⟩ = some s1 → does s1) ∧
      (reachOf pa n = .registers → pa % 4 ≠ 0 → does s) ∧
      (reachOf pa n = .none → does (s.logEvent 0x0A 0x3F (agent.zeroExtend 32) pa))) ∧
    (∀ n, let does := fun (s' : State) => exec (.systemAgentRead agent pa n) s = .next s'
      (reachOf pa n = .memory → (∀ k < n, s.lineGood (pa + k) 0 = true) →
        does (s.send (.readReply agent pa ((List.range n).map fun k => s.mem.read (pa + k)) false))) ∧
      (∀ k, reachOf pa n = .memory → k < n → s.lineGood (pa + k) 0 = false → (∀ i < k, s.lineGood (pa + i) 0 = true) → ∃ bs : List Byte,
        bs.length = n ∧ (∀ i < n, s.lineGood (pa + i) 0 = true → bs[i]? = some (s.mem.read (pa + i))) ∧
        does ((s.freshen.send (.readReply agent pa bs true)).logEvent 0x09 0x3F (agent.zeroExtend 32) ((pa + k) / 64 * 64))) ∧
      (reachOf pa n = .operand → does (s.send (.readReply agent pa ((List.range n).map fun k => s.mem.read (pa + k)) false))) ∧
      (reachOf pa 4 = .registers → pa % 4 = 0 → n = 4 → let r := s.readRegWord (pa - registerBase)
        does (r.2.send (.readReply agent pa (bytesOfNat r.1.toNat 4) false))) ∧
      (reachOf pa n = .none → does (s.logEvent 0x0A 0x3F (agent.zeroExtend 32) pa)))) ∧
  (∀ (s : State) (h q : Nat), exec (.configScrub h q .clean) s = .next s ∧
    (∀ n, exec (.configScrub h q (.corrected n)) s = .next (s.logEvent 0x05 h (BitVec.ofNat 32 n) 0)) ∧
    exec (.configScrub h q .uncorrectable) s = .next (s.logEvent 0x04 h (BitVec.ofNat 32 q) 0) ∧
    (∀ t, s.holder h q = some t → t.phase = .running → s.task? t.id = some t → ∃ s' : State, exec (.configScrub h q .copyLost) s = .next s' ∧
      (s'.task? t.id).map (fun u => (u.phase, u.cause.map (·.code))) = some (.aborting, some 0x14) ∧ .event (.taskAbort t.id) ∈ s'.agenda) ∧
    (∀ t site x y, s.holder h q = some t → t.phase = .running → s.task? t.id = some t → ∃ s' : State,
      exec (.configScrub h q (.stateLost site x y)) s = .next s' ∧ .event (.taskAbort t.id) ∈ s'.agenda ∧
      (s'.task? t.id).map (fun u => (u.phase, u.cause.map fun c => (c.code, c.d0, c.d1))) =
        some (.aborting, some (0x14, site.zeroExtend 32, (y ++ x : BitVec 12).zeroExtend 32))) ∧
    (∀ pa, (regionOf pa).structured = true → ∃ s' : State, exec (.configScrub h q (.lineLost pa)) s = .next s' ∧ ∀ y, s'.lineGood pa y = false))

/-- Power and heat (R456 to R464, R466): a sample converts every diode; a sensor at 110 °C resets the package with the cause of a shutdown, and
else the trip of a tower and the refresh window of a die follow their limits. A control period whose snapshot has been taken chooses its
targets, writes those that have changed one after another as QM_TARGET writes of the bobbin, and ends with its report, in which BEAT is
counted. A hot tower's domains, and of the package those that drew most until the excess power is covered, are lowered by 25 mV; a target
under POLICY 1 is 1,000 mV where nothing bounds it. The watchdog brings every domain that is not pinned to 700 mV. The feed governor counts
a window once; a store that it, or a stall of the pumps, has let down rises from where it stands.
The model's choices it rests on: log entries 104, 105, 107 and 108. -/
def Obligations.HeatAndPower : Prop :=
  (∀ c c30 c100 : Nat, c30 < c100 → Claims.Reads (temperature c c30 c100).toNat c c30 c100) ∧
  (∀ s : State, s.sensors.length = 128 → ∃ s1 s' : State,
    exec .sensorSample s = .next s' ∧ s1 = { s with sensors := s1.sensors, fresh := s.fresh + 1 } ∧ s1.sensors.length = 128 ∧
    (∀ n < 128, let c := Config.sensorCode n s.fresh
      s1.sensors[n]? = some ⟨true, c, temperature c.toNat (Config.calC30 n).toNat (Config.calC100 n).toNat⟩) ∧
    ((∃ n < 128, 1760 ≤ Claims.t16 s1 n) → Claims.IsReset s1 s' 4) ∧
    ((∀ n < 128, Claims.t16 s1 n < 1760) → s'.sensors = s1.sensors ∧ s'.time = s.time ∧ s'.tasks = s.tasks ∧
      (∀ k < 4, k ∈ s'.trips ↔ ∃ n < 32, (if k ∈ s.trips then 1632 else 1680) ≤ Claims.t16 s1 (32 * k + n)) ∧
      (∀ k < 4, ∀ d < 8, 8 * k + d ∈ s'.hotDies ↔
        if 8 * k + d ∈ s.hotDies then 1312 ≤ Claims.t16 s1 (32 * k + 21 + d) else 1360 < Claims.t16 s1 (32 * k + 21 + d)))) ∧
  (∀ s : State, s.bobbin.due = false → exec .controlPeriod s = .next s) ∧
  (∀ s : State, s.bobbin.due = true → s.bobbin.writes = none → s.hoops.length = 64 → (∀ x ∈ s.hoops, x.domains.length = 5) →
    ∃ (s' : State) (ws : List (Nat × BitVec 10)), exec .controlPeriod s = .next s' ∧ s'.agenda = s.agenda ++ [.event .controlPeriod] ∧
      s'.bobbin = { s.bobbin with writes := some ws } ∧ s'.mem = s.mem ∧ s'.tasks = s.tasks ∧ (s.bobbin.en = false → ws = []) ∧
      ∀ h < 64, ∀ d < 5, let x := s.domain h d
        let r := s.boundTarget s.powerLowered h d
        s'.domain h d = { x with bounded := r.2 } ∧
        (s.bobbin.en = true → ((∃ v, (5 * h + d, v) ∈ ws) ↔ r.1 ≠ x.mv.toNat) ∧ ∀ v, (5 * h + d, v) ∈ ws → v = BitVec.ofNat 10 r.1)) ∧
  (∀ (s : State) (n : Nat) (v : BitVec 10) (rest : List (Nat × BitVec 10)) (s1 : State), s.bobbin.due = true →
    s.bobbin.writes = some ((n, v) :: rest) → n < 320 →
    exec (.qmTargetWrite ⟨0x200004 + 0x1000 * (n / 5) + 0x100 * (n % 5), false, v.zeroExtend 64, true⟩)
      { s with bobbin := { s.bobbin with writes := some rest } } = .next s1 → exec .controlPeriod s = .next (s1.push .controlPeriod)) ∧
  (∀ s : State, s.bobbin.due = true → s.bobbin.writes = some [] → ∃ s' : State, exec .controlPeriod s = .next s' ∧ s'.agenda = s.agenda ∧
    s'.bobbin.beat = s.bobbin.beat + 1 ∧ s'.bobbin.pwr = Config.packagePower s.bobbin.seen ∧ s'.bobbin.due = false ∧
    s'.bobbin.pbnd = s.overPower ∧ s'.mem = s.mem ∧ s'.tasks = s.tasks ∧ s'.hoops = s.hoops ∧
    (∃ unstated, s'.feedcap = if (Config.fixedRailPower s.bobbin.seen).toNat < s.bobbin.capw.toNat then
      s.bobbin.capw - Config.fixedRailPower s.bobbin.seen else unstated)) ∧
  (∀ (s : State) (power : List Nat) (h d : Nat), let x := s.domain h d
    let v := (s.boundTarget power h d).1
    let bound := s.hot (h / 16) = true ∨ 5 * h + d ∈ power
    (bound → v ≤ 1000 ∧ v ≤ max 550 (x.mv.toNat - 25) ∧ 550 ≤ v) ∧
    (¬bound → x.bounded = false → 550 ≤ v ∧ v ≤ 1000) ∧
    (¬bound → x.bounded = false → x.ranLast = true → s.bobbin.policy = true → v = 1000) ∧
    (¬bound → x.bounded = false → x.ranLast = false → 550 ≤ x.mv.toNat → x.mv.toNat ≤ 1000 → v = x.mv.toNat) ∧
    (¬bound → x.bounded = true → s.overPower = true → x.mv.toNat < s.candidate h d → v = x.mv.toNat)) ∧
  (∀ s : State, let drew := fun n => (s.domain (n / 5) (n % 5)).drew
    s.byCharge.Pairwise (fun a b => drew b ≤ drew a) ∧ (∀ n, n ∈ s.byCharge ↔ n < 320) ∧ (s.overPower = false → s.powerLowered = []) ∧
    (s.overPower = true → ∃ rest, s.byCharge = s.powerLowered ++ rest ∧
      (rest = [] ∨ s.excessPower ≤ (s.powerLowered.map fun n => Config.powerSaving s.bobbin.seen n).sum))) ∧
  (∀ s : State, s.hoops.length = 64 → (∀ x ∈ s.hoops, x.domains.length = 5) → ∃ s' : State, exec .watchdogFire s = .next s' ∧ s'.bobbin.wdog = true ∧
    ∀ h < 64, ∀ d < 5, (s'.domain h d).mv = if (s.domain h d).pin then (s.domain h d).mv else 700) ∧
  (∀ s : State, (s.capReached = false → exec .feedWindow s = .next { s with capReached := false, windowFeed := 0 }) ∧
    (s.capReached = true → ∃ s' : State, exec .feedWindow s = .next s' ∧ s'.capReached = false ∧ s'.windowFeed = 0 ∧
      ∀ h d, let x := s.domain h d
        s'.domain h d = if x.st = .feed ∧ x.schedule = false ∧ h < s.hoops.length ∧ d < (s.hoop h).domains.length then
          { x with low := BitVec.ofNat 10 (min x.low.toNat (s.holdMv h d)) } else x) ∧
    (s.feedcap ≠ 0 → s.capReached = false → exec .feedcapReached s = .next { s with
      capReached := true, thrw := if s.thrw = 0xFFFFFFFF then s.thrw else s.thrw + 1 }) ∧
    ((s.feedcap = 0 ∨ s.capReached = true) → exec .feedcapReached s = .next s) ∧
    exec .pumpRailLow s = .next { s with pumpsStalled := true } ∧
    (s.pumpsStalled = false → exec .pumpRailRestore s = .next s) ∧
    (s.pumpsStalled = true → ∃ s' : State, exec .pumpRailRestore s = .next s' ∧ s'.pumpsStalled = false ∧
      ∀ h d, let x := s.domain h d
        s'.domain h d = if x.st = .feed ∧ x.schedule = false ∧ h < s.hoops.length ∧ d < (s.hoop h).domains.length then
          { x with low := BitVec.ofNat 10 (min x.low.toNat 420) } else x) ∧
    ∀ k d, exec (.dramRefresh k d) s = .next s)

namespace Sys2Proof.Claims

/-- The invariant of the machine: memory is in its canonical form, and the words that are not empty stand in rising order of address, once each. -/
def Inv (s : State) : Prop := s.mem.wf = true ∧ WordsRise s

/-- The place of the agenda that the next step looks at, and the state without the choice it took. -/
def looksAt (s : State) : Nat × State :=
  match s.choices with
  | [] => (s.cursor, s)
  | c :: rest => (c, { s with choices := rest })

/-- The state in which the first `m` words of the set at place `k` fire: they have left the agenda, and the rest of the set stays in its
place. -/
def begun (s : State) (k : Nat) (g : Firing) (m : Nat) : State :=
  let s1 : State := { s with agenda := s.agenda.eraseIdx k, cursor := 0, cur := some (.firing g, k) }
  if m < g.n then
    { s1 with agenda := s1.agenda.take k ++ .firing (g.part m (g.n - m)) :: s1.agenda.drop k, cur := some (.firing (g.part 0 m), k) }
  else s1

/-- A set of a running task that claims the issue slot of its site for `i` (R7, R44, R45, R139, R188): its first `m` iterations are admitted
and wait for nothing, or it has begun to fire; its output queue has a free entry, and no other set of the site claims the slot before
it. -/
def Claiming (s : State) (k : Nat) (g : Firing) (t : Task) (i : Instr) (m : Nat) : Prop :=
  s.task? g.task = some t ∧ t.phase = .running ∧ t.frozen = .none ∧ (t.inst? (g.instAt 0)).isSome = true ∧ 0 < m ∧
  (g.fired = [] → m = min (s.admittedPrefix t g 0 g.n) (s.readyWords t i g) ∧ (g.win = [] ∨ g.n ≤ m) ∧ s.outputQueue g.task g.site < 4) ∧
  (g.fired ≠ [] → m = g.n) ∧ s.heldByOther t k g (s.outputQueue g.task g.site = 3) = false

end Sys2Proof.Claims

/-- A step runs the instruction it finds, once the instances that meet the conditions of R188 are admitted: where the item it looks at is a
set that claims its issue slot, and the word placed for that set decodes to `i`, the step is exec of `i` on the state in which that set
fires; where it is an event that no earlier token of its channel holds back, the step is exec of the event, before which what has passed an
ordering point ahead of its access performs (R293); a token that is held back waits; and where the agenda holds nothing there, a tick
passes. With a word placed by withFetchWord, the next step is exec of the instruction it decodes to.
The model's choices it rests on: log entries 1, 2, 6, 7 and 127. -/
def Obligations.StepRunsDecodedInstruction : Prop :=
  (∀ (s s1 : State) (k : Nat), Claims.looksAt s.noteAdmitted = (k, s1) →
    (∀ g t p i m, s1.agenda[k]? = some (.firing g) → Claims.Claiming s1 k g t i m → t.placed? g.tag.blk g.tag.inst = some p →
      decode p.word p.lit = .ok i → step s = exec i (Claims.begun s1 k g m)) ∧
    (∀ g t p e, s1.agenda[k]? = some (.firing g) → s1.task? g.task = some t → t.phase = .running → t.frozen = .none →
      t.placed? g.tag.blk g.tag.inst = some p → decode p.word p.lit = .error e → step s = .refused (.undecodable p.word)) ∧
    (∀ e, s1.agenda[k]? = some (.event e) → s1.channelHeld k (.event e) = false →
      let s2 : State := { s1 with agenda := s1.agenda.eraseIdx k, cursor := 0, cur := some (.event e, k) }
      step s = exec e (s2.settleBefore e) ∧ (s1.works = [] → step s = exec e s2)) ∧
    (∀ e, s1.agenda[k]? = some (.event e) → s1.channelHeld k (.event e) = true → step s = .next { s1 with cursor := k + 1, cur := none }) ∧
    (s1.agenda[k]? = none → step s = exec .packageTick { s1 with cursor := 0, cur := none })) ∧
  (∀ (s : State) (w : Nat) (i : Instr), w < 2 ^ 32 → (∀ t ∈ s.tasks, t.id ≠ s.nextTask) → (∀ g, .firing g ∈ s.agenda → g.task ≠ s.nextTask) →
    decodeTableWord 32 w = some i → s.outputQueue s.nextTask (zeroFiring s.nextTask i).site = 0 →
    step (s.withFetchWord 32 w) = exec i (Claims.begun (s.withFetchWord 32 w).noteAdmitted 0 (zeroFiring s.nextTask i) 1))

/-- Every well-formed instruction that has a word is read back from its words, literal included, with every operand at every value; and a
word that decodes is the word of what it decodes to, so that no bit is dropped (R86 to R98). -/
def Obligations.DecodeReadsEncoding : Prop :=
  (∀ (i : Instr) (w : Word), WellFormed i → encodeWord i = some w → decodeWords (encode i) = .ok i) ∧
  (∀ (w lit : Word) (i : Instr), decode w lit = .ok i → encodeWord i = some w)

/-- A few words, written out from the tables of the encoding, decode to what they stand for; an opcode, a tag action, a mod, a pair of literal
bits and a reserved bit that the tables do not allow are refused by name (R87 to R98). -/
def Obligations.EncodedWordsDecode : Prop :=
  decode 0b0000001_0000_0_0_0_000000101_111111111#32 0 = .ok (.add ⟨.keep, false, false, false, 5, 0x1FF, 0⟩) ∧
  decode 0b0000001_0001_0_1_1_000000101_000000111#32 9 = .ok (.add ⟨.inc, false, true, true, 5, 7, 9⟩) ∧
  decode 0b1001101_00011_00_000000001_111111111#32 0 = .ok (.read ⟨3, 1, 0x1FF⟩) ∧
  decode 0b1001100_0000_110_000000000000000000#32 0 = .ok (.exit 6) ∧
  decode 0b0000000_0000_0_0_0_000000000_000000000#32 0 = .error .opcode ∧
  decode 0b0000001_1001_0_0_0_000000101_111111111#32 0 = .error .tagAction ∧
  decode 0b0000001_0000_1_1_0_000000101_111111111#32 0 = .error .bothLiterals ∧
  decode 0b1001101_00011_01_000000001_111111111#32 0 = .error .reserved ∧
  decode 0b1100000_0000_0_0_0_000000001_00000_0111#32 0 = .error .value

/-- The registers of the package at reset, by their offsets (R6, R218, R320, R342, R353, R361, R435, R457, R462, R464, R471, R472, R476, R478,
R482, R485). The cause is power-on: a reset for another cause records that one.
The model's choices it rests on: log entry 35. -/
def Obligations.RegistersAtReset : Prop :=
  let reads := fun (off : Nat) (w : Word) => (State.reset.readRegWord off).1 = w
  reads 0x00 0x4C40B000 ∧ reads 0x04 0x3FFF ∧ reads 0x08 0 ∧ reads 0x0C 1 ∧ reads 0x10 0 ∧ reads 0x14 0 ∧ reads 0x18 0xAF0 ∧ reads 0x1C 0 ∧
  reads 0x20 0 ∧ reads 0x24 0 ∧ reads 0x28 0 ∧ reads 0x30 0 ∧ reads 0x40 0 ∧ reads 0x48 4 ∧
  (∀ k < 4, reads (0x10000 + 0x10000 * k) 0x10044000 ∧ reads (0x400000 + 0x100 * k) 0xC000) ∧
  (∀ h < 64, reads (0x100000 + 0x1000 * h) 0x186A0 ∧ ∀ d < 5, reads (0x200000 + 0x1000 * h + 0x100 * d) 0 ∧
    reads (0x200000 + 0x1000 * h + 0x100 * d + 4) 0x03200320 ∧ reads (0x200000 + 0x1000 * h + 0x100 * d + 0x10) 0) ∧
  (∀ n < 128, reads (0x300100 + 4 * n) 0) ∧
  State.reset.tasks = [] ∧ State.reset.time = 0 ∧ State.reset.run = false ∧ ∀ a, State.reset.mem.read a = 0

/-- At reset, memory is in its canonical form and no word is listed. -/
def Obligations.InvariantAtReset : Prop := Claims.Inv State.reset

/-- Every step keeps the invariant: from any state whose memory is in its canonical form and whose listed words rise, a step that goes on
leads to such a state.
The model's choices it rests on: log entry 2. -/
def Obligations.EveryStepKeepsInvariant : Prop :=
  ∀ s s' : State, Claims.Inv s → step s = .next s' → Claims.Inv s'
end

