-- ==== Sys2Proof/Laws/Memory.lean ====
section
/-!
SUPPORT. Memory as data: reading after writing, and the canonical form that every memory operation keeps.
-/

namespace Sys2Proof.Machine

/-- Every address of a memory is at least `lo`. -/
def Memory.From (lo : Nat) (m : Memory) : Prop := ∀ c ∈ m, lo ≤ c.1

/-- The canonical form of a nonempty memory, by its head. -/
theorem Memory.wf_cons (c : Host.Cell) (m : Memory) :
    Memory.wf (c :: m) = true ↔ c.2 ≠ Memory.unlisted ∧ Memory.From (c.1 + 1) m ∧ Memory.wf m = true := by
  induction m generalizing c with
  | nil => simp [Memory.wf, Memory.From]
  | cons d m ih =>
    simp only [Memory.wf, Bool.and_eq_true, bne_iff_ne, ne_eq, decide_eq_true_eq]
    refine ⟨fun ⟨⟨h1, h2⟩, h3⟩ => ⟨h1, ?_, h3⟩, fun ⟨h1, h2, h3⟩ => ⟨⟨h1, h2 d (List.mem_cons_self ..)⟩, h3⟩⟩
    intro e he
    rcases List.mem_cons.1 he with rfl | he
    · exact h2
    · have := ((ih d).1 h3).2.1 e he
      omega

theorem Memory.From.weaken {lo lo' : Nat} {m : Memory} (h : Memory.From lo m) (hl : lo' ≤ lo) : Memory.From lo' m :=
  fun c hc => Nat.le_trans hl (h c hc)

/-- A write below which nothing is listed leaves nothing listed below. -/
theorem Memory.write_from {lo : Nat} (m : Memory) (a : Nat) (b : Byte) (h : Memory.From lo m) (ha : lo ≤ a) :
    Memory.From lo (m.write a b) := by
  induction m with
  | nil => unfold Memory.write; split <;> simp [Memory.From, ha]
  | cons c m ih =>
    have hm : Memory.From lo m := fun d hd => h d (List.mem_cons_of_mem _ hd)
    have hc := h c (List.mem_cons_self ..)
    unfold Memory.write
    intro d hd
    split at hd
    · rcases List.mem_cons.1 hd with rfl | hd
      · exact hc
      · exact ih hm d hd
    · split at hd
      · split at hd
        · exact hm d hd
        · rcases List.mem_cons.1 hd with rfl | hd
          · exact ha
          · exact hm d hd
      · split at hd
        · exact h d hd
        · rcases List.mem_cons.1 hd with rfl | hd
          · exact ha
          · exact h d hd

/-- A write keeps the canonical form. -/
theorem Memory.write_wf (m : Memory) (a : Nat) (b : Byte) (h : m.wf = true) : (m.write a b).wf = true := by
  induction m with
  | nil =>
    unfold Memory.write
    split
    · rfl
    · simpa [Memory.wf] using ‹¬_›
  | cons c m ih =>
    have hc := (Memory.wf_cons c m).1 h
    unfold Memory.write
    split
    · exact (Memory.wf_cons _ _).2 ⟨hc.1, Memory.write_from m a b hc.2.1 (by omega), ih hc.2.2⟩
    · split
      · split
        · exact hc.2.2
        · refine (Memory.wf_cons _ _).2 ⟨by assumption, ?_, hc.2.2⟩
          rename_i h1 h2
          exact h1 ▸ hc.2.1
      · split
        · exact h
        · refine (Memory.wf_cons _ _).2 ⟨by assumption, ?_, h⟩
          intro d hd
          rcases List.mem_cons.1 hd with rfl | hd
          · show a + 1 ≤ d.1
            omega
          · have := hc.2.1 d hd
            omega

/-- A write of bytes keeps the canonical form. -/
theorem Memory.writeBytes_wf (m : Memory) (a : Nat) (bs : List Byte) (h : m.wf = true) : (m.writeBytes a bs).wf = true := by
  induction bs generalizing m a with
  | nil => exact h
  | cons b bs ih => exact ih _ _ (Memory.write_wf m a b h)

theorem Memory.writeWord_wf (m : Memory) (a : Nat) (w : Word) (h : m.wf = true) : (m.writeWord a w).wf = true :=
  Memory.writeBytes_wf m a _ h

/-- Dropping entries keeps the canonical form. -/
theorem Memory.filter_wf (m : Memory) (p : Host.Cell → Bool) (h : m.wf = true) : Memory.wf (m.filter p) = true := by
  induction m with
  | nil => rfl
  | cons c m ih =>
    have hc := (Memory.wf_cons c m).1 h
    simp only [List.filter_cons]
    split
    · exact (Memory.wf_cons _ _).2 ⟨hc.1, fun d hd => hc.2.1 d (List.mem_filter.1 hd).1, ih hc.2.2⟩
    · exact ih hc.2.2

/-- What is read from a memory with a first entry. -/
theorem Memory.read_cons (c : Host.Cell) (m : Memory) (a : Nat) :
    Memory.read (c :: m) a = if c.1 = a then c.2 else Memory.read m a := by
  unfold Memory.read
  by_cases h : c.1 = a <;> simp [h]

/-- Where every listed address is above it, an address reads as an unlisted one. -/
theorem Memory.read_below {lo : Nat} (m : Memory) (a : Nat) (h : Memory.From lo m) (ha : a < lo) :
    m.read a = Memory.unlisted := by
  induction m with
  | nil => rfl
  | cons c m ih =>
    have hc := h c (List.mem_cons_self ..)
    rw [Memory.read_cons, if_neg (by omega)]
    exact ih fun d hd => h d (List.mem_cons_of_mem _ hd)

/-- READ AFTER WRITE, at the address written. -/
theorem Memory.read_write_same (m : Memory) (a : Nat) (b : Byte) (h : m.wf = true) : (m.write a b).read a = b := by
  induction m with
  | nil =>
    unfold Memory.write
    split
    · subst b; rfl
    · rw [Memory.read_cons]; simp
  | cons c m ih =>
    have hc := (Memory.wf_cons c m).1 h
    unfold Memory.write
    split
    · rw [Memory.read_cons, if_neg (by omega)]
      exact ih hc.2.2
    · split
      · split
        · subst b
          exact Memory.read_below m a hc.2.1 (by omega)
        · rw [Memory.read_cons]; simp
      · split
        · subst b
          rw [Memory.read_cons, if_neg (by omega)]
          exact Memory.read_below m a hc.2.1 (by omega)
        · rw [Memory.read_cons]; simp

/-- READ AFTER WRITE, at any other address. -/
theorem Memory.read_write_other (m : Memory) (a a' : Nat) (b : Byte) (h : a' ≠ a) : (m.write a b).read a' = m.read a' := by
  induction m with
  | nil =>
    unfold Memory.write
    split
    · rfl
    · rw [Memory.read_cons, if_neg (by exact fun e => h e.symm)]
  | cons c m ih =>
    unfold Memory.write
    split
    · rw [Memory.read_cons, Memory.read_cons, ih]
    · split
      · have hc : ¬c.1 = a' := fun e => h (by omega)
        rw [Memory.read_cons c, if_neg hc]
        by_cases hb : b = Memory.unlisted
        · rw [if_pos hb]
        · rw [if_neg hb, Memory.read_cons, if_neg (by exact fun e => h e.symm)]
      · split
        · rfl
        · rw [Memory.read_cons, if_neg (by exact fun e => h e.symm)]

/-- A write of bytes leaves every address outside them alone. -/
theorem Memory.read_writeBytes_other (m : Memory) (a a' : Nat) (bs : List Byte) (h : a' < a ∨ a + bs.length ≤ a') :
    (m.writeBytes a bs).read a' = m.read a' := by
  induction bs generalizing m a with
  | nil => rfl
  | cons b bs ih =>
    simp only [List.length_cons] at h
    rw [Memory.writeBytes, ih (m.write a b) (a + 1) (by omega)]
    exact Memory.read_write_other m a a' b (by omega)

/-! ### The canonical form under the operations of State -/

/-- Both branches of a choice keep the form. -/
theorem State.ite_wf {c : Prop} [Decidable c] {s t : State} (hs : s.mem.wf = true) (ht : t.mem.wf = true) :
    (if c then s else t).mem.wf = true := by
  split
  · exact hs
  · exact ht

theorem State.writeRecord_wf (s : State) (a : Nat) (bs : List Byte) (h : s.mem.wf = true) :
    (s.writeRecord a bs).mem.wf = true := by
  have keep : ∀ (ws : List Nat) (t : State), (ws.foldl (fun t w => t.fullWord w 0) t).mem = t.mem := by
    intro ws
    induction ws with
    | nil => intro t; rfl
    | cons w ws ih => intro t; exact ih _
  unfold State.writeRecord
  simp only
  split
  · rw [keep]; exact Memory.writeBytes_wf _ _ _ h
  · exact Memory.writeBytes_wf _ _ _ h

theorem State.mergeQuietly_wf (s : State) (a : Nat) (h : s.mem.wf = true) : (s.mergeQuietly a).mem.wf = true :=
  State.ite_wf h h

theorem State.logEvent_wf (s : State) (e : BitVec 8) (hoop : Nat) (info : Word) (addr : Nat) (h : s.mem.wf = true) :
    (s.logEvent e hoop info addr).mem.wf = true := by
  unfold State.logEvent
  exact State.ite_wf h (State.writeRecord_wf _ _ _ (State.mergeQuietly_wf _ _ h))

theorem State.setField_wf (s : State) (a : Nat) (w : Word) (h : s.mem.wf = true) : (s.setField a w).mem.wf = true :=
  Memory.writeWord_wf _ _ _ h

theorem State.checkMerge_wf (s : State) (a : Nat) (key : BitVec 12) (n : Nat) (h : s.mem.wf = true) :
    (s.checkMerge a key n).mem.wf = true := by
  unfold State.checkMerge
  exact State.ite_wf h (State.ite_wf h (State.ite_wf h (State.logEvent_wf _ _ _ _ _ h)))

theorem State.plainWord_wf (who : Writer) (s : State) (w : WordWrite) (h : s.mem.wf = true) :
    (s.plainWord who w).mem.wf = true :=
  State.ite_wf (State.logEvent_wf _ _ _ _ _ h) (Memory.writeBytes_wf _ _ _ h)

/-- What every step of a left fold over states keeps, the fold keeps. -/
theorem State.foldl_wf {α : Type} (f : State → α → State) (hf : ∀ s x, s.mem.wf = true → (f s x).mem.wf = true)
    (l : List α) (s : State) (h : s.mem.wf = true) : (l.foldl f s).mem.wf = true := by
  induction l generalizing s with
  | nil => exact h
  | cons x l ih => exact ih _ (hf s x h)

/-- A plain write keeps the canonical form (R264). -/
theorem State.plainWrite_wf (s : State) (a : Nat) (bs : List Byte) (key : BitVec 12) (who : Writer) (h : s.mem.wf = true) :
    (s.plainWrite a bs key who).mem.wf = true := by
  unfold State.plainWrite
  exact State.ite_wf (State.foldl_wf _ (fun t w ht => State.plainWord_wf who t w ht) _ _ (State.checkMerge_wf _ _ _ _ h))
    (Memory.writeBytes_wf _ _ _ h)

end Sys2Proof.Machine
end

