-- ==== Sys2Proof/Laws/State.lean ====
section
/-!
SUPPORT. The fields of State under the updates that every meaning is built from: one lemma for each field an update leaves
alone.
-/

namespace Sys2Proof.Machine

@[simp] theorem State.withTask_agenda (s : State) (id : Nat) (f : Task → Task) : (s.withTask id f).agenda = s.agenda := rfl
@[simp] theorem State.withTask_cursor (s : State) (id : Nat) (f : Task → Task) : (s.withTask id f).cursor = s.cursor := rfl
@[simp] theorem State.withTask_choices (s : State) (id : Nat) (f : Task → Task) : (s.withTask id f).choices = s.choices := rfl
@[simp] theorem State.withTask_cur (s : State) (id : Nat) (f : Task → Task) : (s.withTask id f).cur = s.cur := rfl
@[simp] theorem State.withTask_fresh (s : State) (id : Nat) (f : Task → Task) : (s.withTask id f).fresh = s.fresh := rfl
@[simp] theorem State.withTask_time (s : State) (id : Nat) (f : Task → Task) : (s.withTask id f).time = s.time := rfl
@[simp] theorem State.withTask_mem (s : State) (id : Nat) (f : Task → Task) : (s.withTask id f).mem = s.mem := rfl
@[simp] theorem State.withTask_words (s : State) (id : Nat) (f : Task → Task) : (s.withTask id f).words = s.words := rfl
@[simp] theorem State.withTask_lineKeys (s : State) (id : Nat) (f : Task → Task) : (s.withTask id f).lineKeys = s.lineKeys := rfl
@[simp] theorem State.withTask_keyGens (s : State) (id : Nat) (f : Task → Task) : (s.withTask id f).keyGens = s.keyGens := rfl
@[simp] theorem State.withTask_poison (s : State) (id : Nat) (f : Task → Task) : (s.withTask id f).poison = s.poison := rfl
@[simp] theorem State.withTask_locks (s : State) (id : Nat) (f : Task → Task) : (s.withTask id f).locks = s.locks := rfl
@[simp] theorem State.withTask_bankFlags (s : State) (id : Nat) (f : Task → Task) : (s.withTask id f).bankFlags = s.bankFlags := rfl
@[simp] theorem State.withTask_serial (s : State) (id : Nat) (f : Task → Task) : (s.withTask id f).serial = s.serial := rfl
@[simp] theorem State.withTask_serialBank (s : State) (id : Nat) (f : Task → Task) : (s.withTask id f).serialBank = s.serialBank := rfl
@[simp] theorem State.withTask_queueWaits (s : State) (id : Nat) (f : Task → Task) : (s.withTask id f).queueWaits = s.queueWaits := rfl
@[simp] theorem State.withTask_landWindows (s : State) (id : Nat) (f : Task → Task) : (s.withTask id f).landWindows = s.landWindows := rfl
@[simp] theorem State.withTask_circuits (s : State) (id : Nat) (f : Task → Task) : (s.withTask id f).circuits = s.circuits := rfl
@[simp] theorem State.withTask_nextTask (s : State) (id : Nat) (f : Task → Task) : (s.withTask id f).nextTask = s.nextTask := rfl
@[simp] theorem State.withTask_towers (s : State) (id : Nat) (f : Task → Task) : (s.withTask id f).towers = s.towers := rfl
@[simp] theorem State.withTask_hoops (s : State) (id : Nat) (f : Task → Task) : (s.withTask id f).hoops = s.hoops := rfl
@[simp] theorem State.withTask_reserved (s : State) (id : Nat) (f : Task → Task) : (s.withTask id f).reserved = s.reserved := rfl
@[simp] theorem State.withTask_frozenNodes (s : State) (id : Nat) (f : Task → Task) : (s.withTask id f).frozenNodes = s.frozenNodes := rfl
@[simp] theorem State.withTask_collectives (s : State) (id : Nat) (f : Task → Task) : (s.withTask id f).collectives = s.collectives := rfl
@[simp] theorem State.withTask_works (s : State) (id : Nat) (f : Task → Task) : (s.withTask id f).works = s.works := rfl
@[simp] theorem State.withTask_links (s : State) (id : Nat) (f : Task → Task) : (s.withTask id f).links = s.links := rfl
@[simp] theorem State.withTask_sensors (s : State) (id : Nat) (f : Task → Task) : (s.withTask id f).sensors = s.sensors := rfl
@[simp] theorem State.withTask_trips (s : State) (id : Nat) (f : Task → Task) : (s.withTask id f).trips = s.trips := rfl
@[simp] theorem State.withTask_hotDies (s : State) (id : Nat) (f : Task → Task) : (s.withTask id f).hotDies = s.hotDies := rfl
@[simp] theorem State.withTask_bobbin (s : State) (id : Nat) (f : Task → Task) : (s.withTask id f).bobbin = s.bobbin := rfl
@[simp] theorem State.withTask_bringUp (s : State) (id : Nat) (f : Task → Task) : (s.withTask id f).bringUp = s.bringUp := rfl
@[simp] theorem State.withTask_pumpsStalled (s : State) (id : Nat) (f : Task → Task) : (s.withTask id f).pumpsStalled = s.pumpsStalled := rfl
@[simp] theorem State.withTask_capReached (s : State) (id : Nat) (f : Task → Task) : (s.withTask id f).capReached = s.capReached := rfl
@[simp] theorem State.withTask_windowFeed (s : State) (id : Nat) (f : Task → Task) : (s.withTask id f).windowFeed = s.windowFeed := rfl
@[simp] theorem State.withTask_verif (s : State) (id : Nat) (f : Task → Task) : (s.withTask id f).verif = s.verif := rfl
@[simp] theorem State.withTask_node (s : State) (id : Nat) (f : Task → Task) : (s.withTask id f).node = s.node := rfl
@[simp] theorem State.withTask_run (s : State) (id : Nat) (f : Task → Task) : (s.withTask id f).run = s.run := rfl
@[simp] theorem State.withTask_rstcause (s : State) (id : Nat) (f : Task → Task) : (s.withTask id f).rstcause = s.rstcause := rfl
@[simp] theorem State.withTask_refusedNext (s : State) (id : Nat) (f : Task → Task) : (s.withTask id f).refusedNext = s.refusedNext := rfl
@[simp] theorem State.withTask_pool (s : State) (id : Nat) (f : Task → Task) : (s.withTask id f).pool = s.pool := rfl
@[simp] theorem State.withTask_thrw (s : State) (id : Nat) (f : Task → Task) : (s.withTask id f).thrw = s.thrw := rfl
@[simp] theorem State.withTask_feedcap (s : State) (id : Nat) (f : Task → Task) : (s.withTask id f).feedcap = s.feedcap := rfl
@[simp] theorem State.withTask_asbase (s : State) (id : Nat) (f : Task → Task) : (s.withTask id f).asbase = s.asbase := rfl
@[simp] theorem State.withTask_tlbAsid (s : State) (id : Nat) (f : Task → Task) : (s.withTask id f).tlbAsid = s.tlbAsid := rfl
@[simp] theorem State.withTask_tlbVa (s : State) (id : Nat) (f : Task → Task) : (s.withTask id f).tlbVa = s.tlbVa := rfl
@[simp] theorem State.withTask_tlbMode (s : State) (id : Nat) (f : Task → Task) : (s.withTask id f).tlbMode = s.tlbMode := rfl
@[simp] theorem State.withTask_tlbBusy (s : State) (id : Nat) (f : Task → Task) : (s.withTask id f).tlbBusy = s.tlbBusy := rfl
@[simp] theorem State.withTask_el (s : State) (id : Nat) (f : Task → Task) : (s.withTask id f).el = s.el := rfl
@[simp] theorem State.withTask_incfg (s : State) (id : Nat) (f : Task → Task) : (s.withTask id f).incfg = s.incfg := rfl
@[simp] theorem State.withTask_egcfg (s : State) (id : Nat) (f : Task → Task) : (s.withTask id f).egcfg = s.egcfg := rfl
@[simp] theorem State.withTask_outbox (s : State) (id : Nat) (f : Task → Task) : (s.withTask id f).outbox = s.outbox := rfl

@[simp] theorem State.withHoop_agenda (s : State) (h : Nat) (f : Hoop → Hoop) : (s.withHoop h f).agenda = s.agenda := rfl
@[simp] theorem State.withHoop_cursor (s : State) (h : Nat) (f : Hoop → Hoop) : (s.withHoop h f).cursor = s.cursor := rfl
@[simp] theorem State.withHoop_choices (s : State) (h : Nat) (f : Hoop → Hoop) : (s.withHoop h f).choices = s.choices := rfl
@[simp] theorem State.withHoop_cur (s : State) (h : Nat) (f : Hoop → Hoop) : (s.withHoop h f).cur = s.cur := rfl
@[simp] theorem State.withHoop_fresh (s : State) (h : Nat) (f : Hoop → Hoop) : (s.withHoop h f).fresh = s.fresh := rfl
@[simp] theorem State.withHoop_time (s : State) (h : Nat) (f : Hoop → Hoop) : (s.withHoop h f).time = s.time := rfl
@[simp] theorem State.withHoop_mem (s : State) (h : Nat) (f : Hoop → Hoop) : (s.withHoop h f).mem = s.mem := rfl
@[simp] theorem State.withHoop_words (s : State) (h : Nat) (f : Hoop → Hoop) : (s.withHoop h f).words = s.words := rfl
@[simp] theorem State.withHoop_lineKeys (s : State) (h : Nat) (f : Hoop → Hoop) : (s.withHoop h f).lineKeys = s.lineKeys := rfl
@[simp] theorem State.withHoop_keyGens (s : State) (h : Nat) (f : Hoop → Hoop) : (s.withHoop h f).keyGens = s.keyGens := rfl
@[simp] theorem State.withHoop_poison (s : State) (h : Nat) (f : Hoop → Hoop) : (s.withHoop h f).poison = s.poison := rfl
@[simp] theorem State.withHoop_locks (s : State) (h : Nat) (f : Hoop → Hoop) : (s.withHoop h f).locks = s.locks := rfl
@[simp] theorem State.withHoop_bankFlags (s : State) (h : Nat) (f : Hoop → Hoop) : (s.withHoop h f).bankFlags = s.bankFlags := rfl
@[simp] theorem State.withHoop_serial (s : State) (h : Nat) (f : Hoop → Hoop) : (s.withHoop h f).serial = s.serial := rfl
@[simp] theorem State.withHoop_serialBank (s : State) (h : Nat) (f : Hoop → Hoop) : (s.withHoop h f).serialBank = s.serialBank := rfl
@[simp] theorem State.withHoop_queueWaits (s : State) (h : Nat) (f : Hoop → Hoop) : (s.withHoop h f).queueWaits = s.queueWaits := rfl
@[simp] theorem State.withHoop_landWindows (s : State) (h : Nat) (f : Hoop → Hoop) : (s.withHoop h f).landWindows = s.landWindows := rfl
@[simp] theorem State.withHoop_circuits (s : State) (h : Nat) (f : Hoop → Hoop) : (s.withHoop h f).circuits = s.circuits := rfl
@[simp] theorem State.withHoop_tasks (s : State) (h : Nat) (f : Hoop → Hoop) : (s.withHoop h f).tasks = s.tasks := rfl
@[simp] theorem State.withHoop_nextTask (s : State) (h : Nat) (f : Hoop → Hoop) : (s.withHoop h f).nextTask = s.nextTask := rfl
@[simp] theorem State.withHoop_towers (s : State) (h : Nat) (f : Hoop → Hoop) : (s.withHoop h f).towers = s.towers := rfl
@[simp] theorem State.withHoop_reserved (s : State) (h : Nat) (f : Hoop → Hoop) : (s.withHoop h f).reserved = s.reserved := rfl
@[simp] theorem State.withHoop_frozenNodes (s : State) (h : Nat) (f : Hoop → Hoop) : (s.withHoop h f).frozenNodes = s.frozenNodes := rfl
@[simp] theorem State.withHoop_collectives (s : State) (h : Nat) (f : Hoop → Hoop) : (s.withHoop h f).collectives = s.collectives := rfl
@[simp] theorem State.withHoop_works (s : State) (h : Nat) (f : Hoop → Hoop) : (s.withHoop h f).works = s.works := rfl
@[simp] theorem State.withHoop_links (s : State) (h : Nat) (f : Hoop → Hoop) : (s.withHoop h f).links = s.links := rfl
@[simp] theorem State.withHoop_sensors (s : State) (h : Nat) (f : Hoop → Hoop) : (s.withHoop h f).sensors = s.sensors := rfl
@[simp] theorem State.withHoop_trips (s : State) (h : Nat) (f : Hoop → Hoop) : (s.withHoop h f).trips = s.trips := rfl
@[simp] theorem State.withHoop_hotDies (s : State) (h : Nat) (f : Hoop → Hoop) : (s.withHoop h f).hotDies = s.hotDies := rfl
@[simp] theorem State.withHoop_bobbin (s : State) (h : Nat) (f : Hoop → Hoop) : (s.withHoop h f).bobbin = s.bobbin := rfl
@[simp] theorem State.withHoop_bringUp (s : State) (h : Nat) (f : Hoop → Hoop) : (s.withHoop h f).bringUp = s.bringUp := rfl
@[simp] theorem State.withHoop_pumpsStalled (s : State) (h : Nat) (f : Hoop → Hoop) : (s.withHoop h f).pumpsStalled = s.pumpsStalled := rfl
@[simp] theorem State.withHoop_capReached (s : State) (h : Nat) (f : Hoop → Hoop) : (s.withHoop h f).capReached = s.capReached := rfl
@[simp] theorem State.withHoop_windowFeed (s : State) (h : Nat) (f : Hoop → Hoop) : (s.withHoop h f).windowFeed = s.windowFeed := rfl
@[simp] theorem State.withHoop_verif (s : State) (h : Nat) (f : Hoop → Hoop) : (s.withHoop h f).verif = s.verif := rfl
@[simp] theorem State.withHoop_node (s : State) (h : Nat) (f : Hoop → Hoop) : (s.withHoop h f).node = s.node := rfl
@[simp] theorem State.withHoop_run (s : State) (h : Nat) (f : Hoop → Hoop) : (s.withHoop h f).run = s.run := rfl
@[simp] theorem State.withHoop_rstcause (s : State) (h : Nat) (f : Hoop → Hoop) : (s.withHoop h f).rstcause = s.rstcause := rfl
@[simp] theorem State.withHoop_refusedNext (s : State) (h : Nat) (f : Hoop → Hoop) : (s.withHoop h f).refusedNext = s.refusedNext := rfl
@[simp] theorem State.withHoop_pool (s : State) (h : Nat) (f : Hoop → Hoop) : (s.withHoop h f).pool = s.pool := rfl
@[simp] theorem State.withHoop_thrw (s : State) (h : Nat) (f : Hoop → Hoop) : (s.withHoop h f).thrw = s.thrw := rfl
@[simp] theorem State.withHoop_feedcap (s : State) (h : Nat) (f : Hoop → Hoop) : (s.withHoop h f).feedcap = s.feedcap := rfl
@[simp] theorem State.withHoop_asbase (s : State) (h : Nat) (f : Hoop → Hoop) : (s.withHoop h f).asbase = s.asbase := rfl
@[simp] theorem State.withHoop_tlbAsid (s : State) (h : Nat) (f : Hoop → Hoop) : (s.withHoop h f).tlbAsid = s.tlbAsid := rfl
@[simp] theorem State.withHoop_tlbVa (s : State) (h : Nat) (f : Hoop → Hoop) : (s.withHoop h f).tlbVa = s.tlbVa := rfl
@[simp] theorem State.withHoop_tlbMode (s : State) (h : Nat) (f : Hoop → Hoop) : (s.withHoop h f).tlbMode = s.tlbMode := rfl
@[simp] theorem State.withHoop_tlbBusy (s : State) (h : Nat) (f : Hoop → Hoop) : (s.withHoop h f).tlbBusy = s.tlbBusy := rfl
@[simp] theorem State.withHoop_el (s : State) (h : Nat) (f : Hoop → Hoop) : (s.withHoop h f).el = s.el := rfl
@[simp] theorem State.withHoop_incfg (s : State) (h : Nat) (f : Hoop → Hoop) : (s.withHoop h f).incfg = s.incfg := rfl
@[simp] theorem State.withHoop_egcfg (s : State) (h : Nat) (f : Hoop → Hoop) : (s.withHoop h f).egcfg = s.egcfg := rfl
@[simp] theorem State.withHoop_outbox (s : State) (h : Nat) (f : Hoop → Hoop) : (s.withHoop h f).outbox = s.outbox := rfl

@[simp] theorem State.withTower_agenda (s : State) (k : Nat) (f : Tower → Tower) : (s.withTower k f).agenda = s.agenda := rfl
@[simp] theorem State.withTower_cursor (s : State) (k : Nat) (f : Tower → Tower) : (s.withTower k f).cursor = s.cursor := rfl
@[simp] theorem State.withTower_choices (s : State) (k : Nat) (f : Tower → Tower) : (s.withTower k f).choices = s.choices := rfl
@[simp] theorem State.withTower_cur (s : State) (k : Nat) (f : Tower → Tower) : (s.withTower k f).cur = s.cur := rfl
@[simp] theorem State.withTower_fresh (s : State) (k : Nat) (f : Tower → Tower) : (s.withTower k f).fresh = s.fresh := rfl
@[simp] theorem State.withTower_time (s : State) (k : Nat) (f : Tower → Tower) : (s.withTower k f).time = s.time := rfl
@[simp] theorem State.withTower_mem (s : State) (k : Nat) (f : Tower → Tower) : (s.withTower k f).mem = s.mem := rfl
@[simp] theorem State.withTower_words (s : State) (k : Nat) (f : Tower → Tower) : (s.withTower k f).words = s.words := rfl
@[simp] theorem State.withTower_lineKeys (s : State) (k : Nat) (f : Tower → Tower) : (s.withTower k f).lineKeys = s.lineKeys := rfl
@[simp] theorem State.withTower_keyGens (s : State) (k : Nat) (f : Tower → Tower) : (s.withTower k f).keyGens = s.keyGens := rfl
@[simp] theorem State.withTower_poison (s : State) (k : Nat) (f : Tower → Tower) : (s.withTower k f).poison = s.poison := rfl
@[simp] theorem State.withTower_locks (s : State) (k : Nat) (f : Tower → Tower) : (s.withTower k f).locks = s.locks := rfl
@[simp] theorem State.withTower_bankFlags (s : State) (k : Nat) (f : Tower → Tower) : (s.withTower k f).bankFlags = s.bankFlags := rfl
@[simp] theorem State.withTower_serial (s : State) (k : Nat) (f : Tower → Tower) : (s.withTower k f).serial = s.serial := rfl
@[simp] theorem State.withTower_serialBank (s : State) (k : Nat) (f : Tower → Tower) : (s.withTower k f).serialBank = s.serialBank := rfl
@[simp] theorem State.withTower_queueWaits (s : State) (k : Nat) (f : Tower → Tower) : (s.withTower k f).queueWaits = s.queueWaits := rfl
@[simp] theorem State.withTower_landWindows (s : State) (k : Nat) (f : Tower → Tower) : (s.withTower k f).landWindows = s.landWindows := rfl
@[simp] theorem State.withTower_circuits (s : State) (k : Nat) (f : Tower → Tower) : (s.withTower k f).circuits = s.circuits := rfl
@[simp] theorem State.withTower_tasks (s : State) (k : Nat) (f : Tower → Tower) : (s.withTower k f).tasks = s.tasks := rfl
@[simp] theorem State.withTower_nextTask (s : State) (k : Nat) (f : Tower → Tower) : (s.withTower k f).nextTask = s.nextTask := rfl
@[simp] theorem State.withTower_hoops (s : State) (k : Nat) (f : Tower → Tower) : (s.withTower k f).hoops = s.hoops := rfl
@[simp] theorem State.withTower_reserved (s : State) (k : Nat) (f : Tower → Tower) : (s.withTower k f).reserved = s.reserved := rfl
@[simp] theorem State.withTower_frozenNodes (s : State) (k : Nat) (f : Tower → Tower) : (s.withTower k f).frozenNodes = s.frozenNodes := rfl
@[simp] theorem State.withTower_collectives (s : State) (k : Nat) (f : Tower → Tower) : (s.withTower k f).collectives = s.collectives := rfl
@[simp] theorem State.withTower_works (s : State) (k : Nat) (f : Tower → Tower) : (s.withTower k f).works = s.works := rfl
@[simp] theorem State.withTower_links (s : State) (k : Nat) (f : Tower → Tower) : (s.withTower k f).links = s.links := rfl
@[simp] theorem State.withTower_sensors (s : State) (k : Nat) (f : Tower → Tower) : (s.withTower k f).sensors = s.sensors := rfl
@[simp] theorem State.withTower_trips (s : State) (k : Nat) (f : Tower → Tower) : (s.withTower k f).trips = s.trips := rfl
@[simp] theorem State.withTower_hotDies (s : State) (k : Nat) (f : Tower → Tower) : (s.withTower k f).hotDies = s.hotDies := rfl
@[simp] theorem State.withTower_bobbin (s : State) (k : Nat) (f : Tower → Tower) : (s.withTower k f).bobbin = s.bobbin := rfl
@[simp] theorem State.withTower_bringUp (s : State) (k : Nat) (f : Tower → Tower) : (s.withTower k f).bringUp = s.bringUp := rfl
@[simp] theorem State.withTower_pumpsStalled (s : State) (k : Nat) (f : Tower → Tower) : (s.withTower k f).pumpsStalled = s.pumpsStalled := rfl
@[simp] theorem State.withTower_capReached (s : State) (k : Nat) (f : Tower → Tower) : (s.withTower k f).capReached = s.capReached := rfl
@[simp] theorem State.withTower_windowFeed (s : State) (k : Nat) (f : Tower → Tower) : (s.withTower k f).windowFeed = s.windowFeed := rfl
@[simp] theorem State.withTower_verif (s : State) (k : Nat) (f : Tower → Tower) : (s.withTower k f).verif = s.verif := rfl
@[simp] theorem State.withTower_node (s : State) (k : Nat) (f : Tower → Tower) : (s.withTower k f).node = s.node := rfl
@[simp] theorem State.withTower_run (s : State) (k : Nat) (f : Tower → Tower) : (s.withTower k f).run = s.run := rfl
@[simp] theorem State.withTower_rstcause (s : State) (k : Nat) (f : Tower → Tower) : (s.withTower k f).rstcause = s.rstcause := rfl
@[simp] theorem State.withTower_refusedNext (s : State) (k : Nat) (f : Tower → Tower) : (s.withTower k f).refusedNext = s.refusedNext := rfl
@[simp] theorem State.withTower_pool (s : State) (k : Nat) (f : Tower → Tower) : (s.withTower k f).pool = s.pool := rfl
@[simp] theorem State.withTower_thrw (s : State) (k : Nat) (f : Tower → Tower) : (s.withTower k f).thrw = s.thrw := rfl
@[simp] theorem State.withTower_feedcap (s : State) (k : Nat) (f : Tower → Tower) : (s.withTower k f).feedcap = s.feedcap := rfl
@[simp] theorem State.withTower_asbase (s : State) (k : Nat) (f : Tower → Tower) : (s.withTower k f).asbase = s.asbase := rfl
@[simp] theorem State.withTower_tlbAsid (s : State) (k : Nat) (f : Tower → Tower) : (s.withTower k f).tlbAsid = s.tlbAsid := rfl
@[simp] theorem State.withTower_tlbVa (s : State) (k : Nat) (f : Tower → Tower) : (s.withTower k f).tlbVa = s.tlbVa := rfl
@[simp] theorem State.withTower_tlbMode (s : State) (k : Nat) (f : Tower → Tower) : (s.withTower k f).tlbMode = s.tlbMode := rfl
@[simp] theorem State.withTower_tlbBusy (s : State) (k : Nat) (f : Tower → Tower) : (s.withTower k f).tlbBusy = s.tlbBusy := rfl
@[simp] theorem State.withTower_el (s : State) (k : Nat) (f : Tower → Tower) : (s.withTower k f).el = s.el := rfl
@[simp] theorem State.withTower_incfg (s : State) (k : Nat) (f : Tower → Tower) : (s.withTower k f).incfg = s.incfg := rfl
@[simp] theorem State.withTower_egcfg (s : State) (k : Nat) (f : Tower → Tower) : (s.withTower k f).egcfg = s.egcfg := rfl
@[simp] theorem State.withTower_outbox (s : State) (k : Nat) (f : Tower → Tower) : (s.withTower k f).outbox = s.outbox := rfl

@[simp] theorem State.push_cursor (s : State) (e : Instr) : (s.push e).cursor = s.cursor := rfl
@[simp] theorem State.push_choices (s : State) (e : Instr) : (s.push e).choices = s.choices := rfl
@[simp] theorem State.push_cur (s : State) (e : Instr) : (s.push e).cur = s.cur := rfl
@[simp] theorem State.push_fresh (s : State) (e : Instr) : (s.push e).fresh = s.fresh := rfl
@[simp] theorem State.push_time (s : State) (e : Instr) : (s.push e).time = s.time := rfl
@[simp] theorem State.push_mem (s : State) (e : Instr) : (s.push e).mem = s.mem := rfl
@[simp] theorem State.push_words (s : State) (e : Instr) : (s.push e).words = s.words := rfl
@[simp] theorem State.push_lineKeys (s : State) (e : Instr) : (s.push e).lineKeys = s.lineKeys := rfl
@[simp] theorem State.push_keyGens (s : State) (e : Instr) : (s.push e).keyGens = s.keyGens := rfl
@[simp] theorem State.push_poison (s : State) (e : Instr) : (s.push e).poison = s.poison := rfl
@[simp] theorem State.push_locks (s : State) (e : Instr) : (s.push e).locks = s.locks := rfl
@[simp] theorem State.push_bankFlags (s : State) (e : Instr) : (s.push e).bankFlags = s.bankFlags := rfl
@[simp] theorem State.push_serial (s : State) (e : Instr) : (s.push e).serial = s.serial := rfl
@[simp] theorem State.push_serialBank (s : State) (e : Instr) : (s.push e).serialBank = s.serialBank := rfl
@[simp] theorem State.push_queueWaits (s : State) (e : Instr) : (s.push e).queueWaits = s.queueWaits := rfl
@[simp] theorem State.push_landWindows (s : State) (e : Instr) : (s.push e).landWindows = s.landWindows := rfl
@[simp] theorem State.push_circuits (s : State) (e : Instr) : (s.push e).circuits = s.circuits := rfl
@[simp] theorem State.push_tasks (s : State) (e : Instr) : (s.push e).tasks = s.tasks := rfl
@[simp] theorem State.push_nextTask (s : State) (e : Instr) : (s.push e).nextTask = s.nextTask := rfl
@[simp] theorem State.push_towers (s : State) (e : Instr) : (s.push e).towers = s.towers := rfl
@[simp] theorem State.push_hoops (s : State) (e : Instr) : (s.push e).hoops = s.hoops := rfl
@[simp] theorem State.push_reserved (s : State) (e : Instr) : (s.push e).reserved = s.reserved := rfl
@[simp] theorem State.push_frozenNodes (s : State) (e : Instr) : (s.push e).frozenNodes = s.frozenNodes := rfl
@[simp] theorem State.push_collectives (s : State) (e : Instr) : (s.push e).collectives = s.collectives := rfl
@[simp] theorem State.push_works (s : State) (e : Instr) : (s.push e).works = s.works := rfl
@[simp] theorem State.push_links (s : State) (e : Instr) : (s.push e).links = s.links := rfl
@[simp] theorem State.push_sensors (s : State) (e : Instr) : (s.push e).sensors = s.sensors := rfl
@[simp] theorem State.push_trips (s : State) (e : Instr) : (s.push e).trips = s.trips := rfl
@[simp] theorem State.push_hotDies (s : State) (e : Instr) : (s.push e).hotDies = s.hotDies := rfl
@[simp] theorem State.push_bobbin (s : State) (e : Instr) : (s.push e).bobbin = s.bobbin := rfl
@[simp] theorem State.push_bringUp (s : State) (e : Instr) : (s.push e).bringUp = s.bringUp := rfl
@[simp] theorem State.push_pumpsStalled (s : State) (e : Instr) : (s.push e).pumpsStalled = s.pumpsStalled := rfl
@[simp] theorem State.push_capReached (s : State) (e : Instr) : (s.push e).capReached = s.capReached := rfl
@[simp] theorem State.push_windowFeed (s : State) (e : Instr) : (s.push e).windowFeed = s.windowFeed := rfl
@[simp] theorem State.push_verif (s : State) (e : Instr) : (s.push e).verif = s.verif := rfl
@[simp] theorem State.push_node (s : State) (e : Instr) : (s.push e).node = s.node := rfl
@[simp] theorem State.push_run (s : State) (e : Instr) : (s.push e).run = s.run := rfl
@[simp] theorem State.push_rstcause (s : State) (e : Instr) : (s.push e).rstcause = s.rstcause := rfl
@[simp] theorem State.push_refusedNext (s : State) (e : Instr) : (s.push e).refusedNext = s.refusedNext := rfl
@[simp] theorem State.push_pool (s : State) (e : Instr) : (s.push e).pool = s.pool := rfl
@[simp] theorem State.push_thrw (s : State) (e : Instr) : (s.push e).thrw = s.thrw := rfl
@[simp] theorem State.push_feedcap (s : State) (e : Instr) : (s.push e).feedcap = s.feedcap := rfl
@[simp] theorem State.push_asbase (s : State) (e : Instr) : (s.push e).asbase = s.asbase := rfl
@[simp] theorem State.push_tlbAsid (s : State) (e : Instr) : (s.push e).tlbAsid = s.tlbAsid := rfl
@[simp] theorem State.push_tlbVa (s : State) (e : Instr) : (s.push e).tlbVa = s.tlbVa := rfl
@[simp] theorem State.push_tlbMode (s : State) (e : Instr) : (s.push e).tlbMode = s.tlbMode := rfl
@[simp] theorem State.push_tlbBusy (s : State) (e : Instr) : (s.push e).tlbBusy = s.tlbBusy := rfl
@[simp] theorem State.push_el (s : State) (e : Instr) : (s.push e).el = s.el := rfl
@[simp] theorem State.push_incfg (s : State) (e : Instr) : (s.push e).incfg = s.incfg := rfl
@[simp] theorem State.push_egcfg (s : State) (e : Instr) : (s.push e).egcfg = s.egcfg := rfl
@[simp] theorem State.push_outbox (s : State) (e : Instr) : (s.push e).outbox = s.outbox := rfl

@[simp] theorem State.pushAll_cursor (s : State) (es : List Instr) : (s.pushAll es).cursor = s.cursor := rfl
@[simp] theorem State.pushAll_choices (s : State) (es : List Instr) : (s.pushAll es).choices = s.choices := rfl
@[simp] theorem State.pushAll_cur (s : State) (es : List Instr) : (s.pushAll es).cur = s.cur := rfl
@[simp] theorem State.pushAll_fresh (s : State) (es : List Instr) : (s.pushAll es).fresh = s.fresh := rfl
@[simp] theorem State.pushAll_time (s : State) (es : List Instr) : (s.pushAll es).time = s.time := rfl
@[simp] theorem State.pushAll_mem (s : State) (es : List Instr) : (s.pushAll es).mem = s.mem := rfl
@[simp] theorem State.pushAll_words (s : State) (es : List Instr) : (s.pushAll es).words = s.words := rfl
@[simp] theorem State.pushAll_lineKeys (s : State) (es : List Instr) : (s.pushAll es).lineKeys = s.lineKeys := rfl
@[simp] theorem State.pushAll_keyGens (s : State) (es : List Instr) : (s.pushAll es).keyGens = s.keyGens := rfl
@[simp] theorem State.pushAll_poison (s : State) (es : List Instr) : (s.pushAll es).poison = s.poison := rfl
@[simp] theorem State.pushAll_locks (s : State) (es : List Instr) : (s.pushAll es).locks = s.locks := rfl
@[simp] theorem State.pushAll_bankFlags (s : State) (es : List Instr) : (s.pushAll es).bankFlags = s.bankFlags := rfl
@[simp] theorem State.pushAll_serial (s : State) (es : List Instr) : (s.pushAll es).serial = s.serial := rfl
@[simp] theorem State.pushAll_serialBank (s : State) (es : List Instr) : (s.pushAll es).serialBank = s.serialBank := rfl
@[simp] theorem State.pushAll_queueWaits (s : State) (es : List Instr) : (s.pushAll es).queueWaits = s.queueWaits := rfl
@[simp] theorem State.pushAll_landWindows (s : State) (es : List Instr) : (s.pushAll es).landWindows = s.landWindows := rfl
@[simp] theorem State.pushAll_circuits (s : State) (es : List Instr) : (s.pushAll es).circuits = s.circuits := rfl
@[simp] theorem State.pushAll_tasks (s : State) (es : List Instr) : (s.pushAll es).tasks = s.tasks := rfl
@[simp] theorem State.pushAll_nextTask (s : State) (es : List Instr) : (s.pushAll es).nextTask = s.nextTask := rfl
@[simp] theorem State.pushAll_towers (s : State) (es : List Instr) : (s.pushAll es).towers = s.towers := rfl
@[simp] theorem State.pushAll_hoops (s : State) (es : List Instr) : (s.pushAll es).hoops = s.hoops := rfl
@[simp] theorem State.pushAll_reserved (s : State) (es : List Instr) : (s.pushAll es).reserved = s.reserved := rfl
@[simp] theorem State.pushAll_frozenNodes (s : State) (es : List Instr) : (s.pushAll es).frozenNodes = s.frozenNodes := rfl
@[simp] theorem State.pushAll_collectives (s : State) (es : List Instr) : (s.pushAll es).collectives = s.collectives := rfl
@[simp] theorem State.pushAll_works (s : State) (es : List Instr) : (s.pushAll es).works = s.works := rfl
@[simp] theorem State.pushAll_links (s : State) (es : List Instr) : (s.pushAll es).links = s.links := rfl
@[simp] theorem State.pushAll_sensors (s : State) (es : List Instr) : (s.pushAll es).sensors = s.sensors := rfl
@[simp] theorem State.pushAll_trips (s : State) (es : List Instr) : (s.pushAll es).trips = s.trips := rfl
@[simp] theorem State.pushAll_hotDies (s : State) (es : List Instr) : (s.pushAll es).hotDies = s.hotDies := rfl
@[simp] theorem State.pushAll_bobbin (s : State) (es : List Instr) : (s.pushAll es).bobbin = s.bobbin := rfl
@[simp] theorem State.pushAll_bringUp (s : State) (es : List Instr) : (s.pushAll es).bringUp = s.bringUp := rfl
@[simp] theorem State.pushAll_pumpsStalled (s : State) (es : List Instr) : (s.pushAll es).pumpsStalled = s.pumpsStalled := rfl
@[simp] theorem State.pushAll_capReached (s : State) (es : List Instr) : (s.pushAll es).capReached = s.capReached := rfl
@[simp] theorem State.pushAll_windowFeed (s : State) (es : List Instr) : (s.pushAll es).windowFeed = s.windowFeed := rfl
@[simp] theorem State.pushAll_verif (s : State) (es : List Instr) : (s.pushAll es).verif = s.verif := rfl
@[simp] theorem State.pushAll_node (s : State) (es : List Instr) : (s.pushAll es).node = s.node := rfl
@[simp] theorem State.pushAll_run (s : State) (es : List Instr) : (s.pushAll es).run = s.run := rfl
@[simp] theorem State.pushAll_rstcause (s : State) (es : List Instr) : (s.pushAll es).rstcause = s.rstcause := rfl
@[simp] theorem State.pushAll_refusedNext (s : State) (es : List Instr) : (s.pushAll es).refusedNext = s.refusedNext := rfl
@[simp] theorem State.pushAll_pool (s : State) (es : List Instr) : (s.pushAll es).pool = s.pool := rfl
@[simp] theorem State.pushAll_thrw (s : State) (es : List Instr) : (s.pushAll es).thrw = s.thrw := rfl
@[simp] theorem State.pushAll_feedcap (s : State) (es : List Instr) : (s.pushAll es).feedcap = s.feedcap := rfl
@[simp] theorem State.pushAll_asbase (s : State) (es : List Instr) : (s.pushAll es).asbase = s.asbase := rfl
@[simp] theorem State.pushAll_tlbAsid (s : State) (es : List Instr) : (s.pushAll es).tlbAsid = s.tlbAsid := rfl
@[simp] theorem State.pushAll_tlbVa (s : State) (es : List Instr) : (s.pushAll es).tlbVa = s.tlbVa := rfl
@[simp] theorem State.pushAll_tlbMode (s : State) (es : List Instr) : (s.pushAll es).tlbMode = s.tlbMode := rfl
@[simp] theorem State.pushAll_tlbBusy (s : State) (es : List Instr) : (s.pushAll es).tlbBusy = s.tlbBusy := rfl
@[simp] theorem State.pushAll_el (s : State) (es : List Instr) : (s.pushAll es).el = s.el := rfl
@[simp] theorem State.pushAll_incfg (s : State) (es : List Instr) : (s.pushAll es).incfg = s.incfg := rfl
@[simp] theorem State.pushAll_egcfg (s : State) (es : List Instr) : (s.pushAll es).egcfg = s.egcfg := rfl
@[simp] theorem State.pushAll_outbox (s : State) (es : List Instr) : (s.pushAll es).outbox = s.outbox := rfl

@[simp] theorem State.pushFiring_cursor (s : State) (g : Firing) : (s.pushFiring g).cursor = s.cursor := rfl
@[simp] theorem State.pushFiring_choices (s : State) (g : Firing) : (s.pushFiring g).choices = s.choices := rfl
@[simp] theorem State.pushFiring_cur (s : State) (g : Firing) : (s.pushFiring g).cur = s.cur := rfl
@[simp] theorem State.pushFiring_fresh (s : State) (g : Firing) : (s.pushFiring g).fresh = s.fresh := rfl
@[simp] theorem State.pushFiring_time (s : State) (g : Firing) : (s.pushFiring g).time = s.time := rfl
@[simp] theorem State.pushFiring_mem (s : State) (g : Firing) : (s.pushFiring g).mem = s.mem := rfl
@[simp] theorem State.pushFiring_words (s : State) (g : Firing) : (s.pushFiring g).words = s.words := rfl
@[simp] theorem State.pushFiring_lineKeys (s : State) (g : Firing) : (s.pushFiring g).lineKeys = s.lineKeys := rfl
@[simp] theorem State.pushFiring_keyGens (s : State) (g : Firing) : (s.pushFiring g).keyGens = s.keyGens := rfl
@[simp] theorem State.pushFiring_poison (s : State) (g : Firing) : (s.pushFiring g).poison = s.poison := rfl
@[simp] theorem State.pushFiring_locks (s : State) (g : Firing) : (s.pushFiring g).locks = s.locks := rfl
@[simp] theorem State.pushFiring_bankFlags (s : State) (g : Firing) : (s.pushFiring g).bankFlags = s.bankFlags := rfl
@[simp] theorem State.pushFiring_serial (s : State) (g : Firing) : (s.pushFiring g).serial = s.serial := rfl
@[simp] theorem State.pushFiring_serialBank (s : State) (g : Firing) : (s.pushFiring g).serialBank = s.serialBank := rfl
@[simp] theorem State.pushFiring_queueWaits (s : State) (g : Firing) : (s.pushFiring g).queueWaits = s.queueWaits := rfl
@[simp] theorem State.pushFiring_landWindows (s : State) (g : Firing) : (s.pushFiring g).landWindows = s.landWindows := rfl
@[simp] theorem State.pushFiring_circuits (s : State) (g : Firing) : (s.pushFiring g).circuits = s.circuits := rfl
@[simp] theorem State.pushFiring_tasks (s : State) (g : Firing) : (s.pushFiring g).tasks = s.tasks := rfl
@[simp] theorem State.pushFiring_nextTask (s : State) (g : Firing) : (s.pushFiring g).nextTask = s.nextTask := rfl
@[simp] theorem State.pushFiring_towers (s : State) (g : Firing) : (s.pushFiring g).towers = s.towers := rfl
@[simp] theorem State.pushFiring_hoops (s : State) (g : Firing) : (s.pushFiring g).hoops = s.hoops := rfl
@[simp] theorem State.pushFiring_reserved (s : State) (g : Firing) : (s.pushFiring g).reserved = s.reserved := rfl
@[simp] theorem State.pushFiring_frozenNodes (s : State) (g : Firing) : (s.pushFiring g).frozenNodes = s.frozenNodes := rfl
@[simp] theorem State.pushFiring_collectives (s : State) (g : Firing) : (s.pushFiring g).collectives = s.collectives := rfl
@[simp] theorem State.pushFiring_works (s : State) (g : Firing) : (s.pushFiring g).works = s.works := rfl
@[simp] theorem State.pushFiring_links (s : State) (g : Firing) : (s.pushFiring g).links = s.links := rfl
@[simp] theorem State.pushFiring_sensors (s : State) (g : Firing) : (s.pushFiring g).sensors = s.sensors := rfl
@[simp] theorem State.pushFiring_trips (s : State) (g : Firing) : (s.pushFiring g).trips = s.trips := rfl
@[simp] theorem State.pushFiring_hotDies (s : State) (g : Firing) : (s.pushFiring g).hotDies = s.hotDies := rfl
@[simp] theorem State.pushFiring_bobbin (s : State) (g : Firing) : (s.pushFiring g).bobbin = s.bobbin := rfl
@[simp] theorem State.pushFiring_bringUp (s : State) (g : Firing) : (s.pushFiring g).bringUp = s.bringUp := rfl
@[simp] theorem State.pushFiring_pumpsStalled (s : State) (g : Firing) : (s.pushFiring g).pumpsStalled = s.pumpsStalled := rfl
@[simp] theorem State.pushFiring_capReached (s : State) (g : Firing) : (s.pushFiring g).capReached = s.capReached := rfl
@[simp] theorem State.pushFiring_windowFeed (s : State) (g : Firing) : (s.pushFiring g).windowFeed = s.windowFeed := rfl
@[simp] theorem State.pushFiring_verif (s : State) (g : Firing) : (s.pushFiring g).verif = s.verif := rfl
@[simp] theorem State.pushFiring_node (s : State) (g : Firing) : (s.pushFiring g).node = s.node := rfl
@[simp] theorem State.pushFiring_run (s : State) (g : Firing) : (s.pushFiring g).run = s.run := rfl
@[simp] theorem State.pushFiring_rstcause (s : State) (g : Firing) : (s.pushFiring g).rstcause = s.rstcause := rfl
@[simp] theorem State.pushFiring_refusedNext (s : State) (g : Firing) : (s.pushFiring g).refusedNext = s.refusedNext := rfl
@[simp] theorem State.pushFiring_pool (s : State) (g : Firing) : (s.pushFiring g).pool = s.pool := rfl
@[simp] theorem State.pushFiring_thrw (s : State) (g : Firing) : (s.pushFiring g).thrw = s.thrw := rfl
@[simp] theorem State.pushFiring_feedcap (s : State) (g : Firing) : (s.pushFiring g).feedcap = s.feedcap := rfl
@[simp] theorem State.pushFiring_asbase (s : State) (g : Firing) : (s.pushFiring g).asbase = s.asbase := rfl
@[simp] theorem State.pushFiring_tlbAsid (s : State) (g : Firing) : (s.pushFiring g).tlbAsid = s.tlbAsid := rfl
@[simp] theorem State.pushFiring_tlbVa (s : State) (g : Firing) : (s.pushFiring g).tlbVa = s.tlbVa := rfl
@[simp] theorem State.pushFiring_tlbMode (s : State) (g : Firing) : (s.pushFiring g).tlbMode = s.tlbMode := rfl
@[simp] theorem State.pushFiring_tlbBusy (s : State) (g : Firing) : (s.pushFiring g).tlbBusy = s.tlbBusy := rfl
@[simp] theorem State.pushFiring_el (s : State) (g : Firing) : (s.pushFiring g).el = s.el := rfl
@[simp] theorem State.pushFiring_incfg (s : State) (g : Firing) : (s.pushFiring g).incfg = s.incfg := rfl
@[simp] theorem State.pushFiring_egcfg (s : State) (g : Firing) : (s.pushFiring g).egcfg = s.egcfg := rfl
@[simp] theorem State.pushFiring_outbox (s : State) (g : Firing) : (s.pushFiring g).outbox = s.outbox := rfl

@[simp] theorem State.send_agenda (s : State) (m : OutMsg) : (s.send m).agenda = s.agenda := rfl
@[simp] theorem State.send_cursor (s : State) (m : OutMsg) : (s.send m).cursor = s.cursor := rfl
@[simp] theorem State.send_choices (s : State) (m : OutMsg) : (s.send m).choices = s.choices := rfl
@[simp] theorem State.send_cur (s : State) (m : OutMsg) : (s.send m).cur = s.cur := rfl
@[simp] theorem State.send_fresh (s : State) (m : OutMsg) : (s.send m).fresh = s.fresh := rfl
@[simp] theorem State.send_time (s : State) (m : OutMsg) : (s.send m).time = s.time := rfl
@[simp] theorem State.send_mem (s : State) (m : OutMsg) : (s.send m).mem = s.mem := rfl
@[simp] theorem State.send_words (s : State) (m : OutMsg) : (s.send m).words = s.words := rfl
@[simp] theorem State.send_lineKeys (s : State) (m : OutMsg) : (s.send m).lineKeys = s.lineKeys := rfl
@[simp] theorem State.send_keyGens (s : State) (m : OutMsg) : (s.send m).keyGens = s.keyGens := rfl
@[simp] theorem State.send_poison (s : State) (m : OutMsg) : (s.send m).poison = s.poison := rfl
@[simp] theorem State.send_locks (s : State) (m : OutMsg) : (s.send m).locks = s.locks := rfl
@[simp] theorem State.send_bankFlags (s : State) (m : OutMsg) : (s.send m).bankFlags = s.bankFlags := rfl
@[simp] theorem State.send_serial (s : State) (m : OutMsg) : (s.send m).serial = s.serial := rfl
@[simp] theorem State.send_serialBank (s : State) (m : OutMsg) : (s.send m).serialBank = s.serialBank := rfl
@[simp] theorem State.send_queueWaits (s : State) (m : OutMsg) : (s.send m).queueWaits = s.queueWaits := rfl
@[simp] theorem State.send_landWindows (s : State) (m : OutMsg) : (s.send m).landWindows = s.landWindows := rfl
@[simp] theorem State.send_circuits (s : State) (m : OutMsg) : (s.send m).circuits = s.circuits := rfl
@[simp] theorem State.send_tasks (s : State) (m : OutMsg) : (s.send m).tasks = s.tasks := rfl
@[simp] theorem State.send_nextTask (s : State) (m : OutMsg) : (s.send m).nextTask = s.nextTask := rfl
@[simp] theorem State.send_towers (s : State) (m : OutMsg) : (s.send m).towers = s.towers := rfl
@[simp] theorem State.send_hoops (s : State) (m : OutMsg) : (s.send m).hoops = s.hoops := rfl
@[simp] theorem State.send_reserved (s : State) (m : OutMsg) : (s.send m).reserved = s.reserved := rfl
@[simp] theorem State.send_frozenNodes (s : State) (m : OutMsg) : (s.send m).frozenNodes = s.frozenNodes := rfl
@[simp] theorem State.send_collectives (s : State) (m : OutMsg) : (s.send m).collectives = s.collectives := rfl
@[simp] theorem State.send_works (s : State) (m : OutMsg) : (s.send m).works = s.works := rfl
@[simp] theorem State.send_links (s : State) (m : OutMsg) : (s.send m).links = s.links := rfl
@[simp] theorem State.send_sensors (s : State) (m : OutMsg) : (s.send m).sensors = s.sensors := rfl
@[simp] theorem State.send_trips (s : State) (m : OutMsg) : (s.send m).trips = s.trips := rfl
@[simp] theorem State.send_hotDies (s : State) (m : OutMsg) : (s.send m).hotDies = s.hotDies := rfl
@[simp] theorem State.send_bobbin (s : State) (m : OutMsg) : (s.send m).bobbin = s.bobbin := rfl
@[simp] theorem State.send_bringUp (s : State) (m : OutMsg) : (s.send m).bringUp = s.bringUp := rfl
@[simp] theorem State.send_pumpsStalled (s : State) (m : OutMsg) : (s.send m).pumpsStalled = s.pumpsStalled := rfl
@[simp] theorem State.send_capReached (s : State) (m : OutMsg) : (s.send m).capReached = s.capReached := rfl
@[simp] theorem State.send_windowFeed (s : State) (m : OutMsg) : (s.send m).windowFeed = s.windowFeed := rfl
@[simp] theorem State.send_verif (s : State) (m : OutMsg) : (s.send m).verif = s.verif := rfl
@[simp] theorem State.send_node (s : State) (m : OutMsg) : (s.send m).node = s.node := rfl
@[simp] theorem State.send_run (s : State) (m : OutMsg) : (s.send m).run = s.run := rfl
@[simp] theorem State.send_rstcause (s : State) (m : OutMsg) : (s.send m).rstcause = s.rstcause := rfl
@[simp] theorem State.send_refusedNext (s : State) (m : OutMsg) : (s.send m).refusedNext = s.refusedNext := rfl
@[simp] theorem State.send_pool (s : State) (m : OutMsg) : (s.send m).pool = s.pool := rfl
@[simp] theorem State.send_thrw (s : State) (m : OutMsg) : (s.send m).thrw = s.thrw := rfl
@[simp] theorem State.send_feedcap (s : State) (m : OutMsg) : (s.send m).feedcap = s.feedcap := rfl
@[simp] theorem State.send_asbase (s : State) (m : OutMsg) : (s.send m).asbase = s.asbase := rfl
@[simp] theorem State.send_tlbAsid (s : State) (m : OutMsg) : (s.send m).tlbAsid = s.tlbAsid := rfl
@[simp] theorem State.send_tlbVa (s : State) (m : OutMsg) : (s.send m).tlbVa = s.tlbVa := rfl
@[simp] theorem State.send_tlbMode (s : State) (m : OutMsg) : (s.send m).tlbMode = s.tlbMode := rfl
@[simp] theorem State.send_tlbBusy (s : State) (m : OutMsg) : (s.send m).tlbBusy = s.tlbBusy := rfl
@[simp] theorem State.send_el (s : State) (m : OutMsg) : (s.send m).el = s.el := rfl
@[simp] theorem State.send_incfg (s : State) (m : OutMsg) : (s.send m).incfg = s.incfg := rfl
@[simp] theorem State.send_egcfg (s : State) (m : OutMsg) : (s.send m).egcfg = s.egcfg := rfl

@[simp] theorem State.freshen_agenda (s : State) : (s.freshen).agenda = s.agenda := rfl
@[simp] theorem State.freshen_cursor (s : State) : (s.freshen).cursor = s.cursor := rfl
@[simp] theorem State.freshen_choices (s : State) : (s.freshen).choices = s.choices := rfl
@[simp] theorem State.freshen_cur (s : State) : (s.freshen).cur = s.cur := rfl
@[simp] theorem State.freshen_time (s : State) : (s.freshen).time = s.time := rfl
@[simp] theorem State.freshen_mem (s : State) : (s.freshen).mem = s.mem := rfl
@[simp] theorem State.freshen_words (s : State) : (s.freshen).words = s.words := rfl
@[simp] theorem State.freshen_lineKeys (s : State) : (s.freshen).lineKeys = s.lineKeys := rfl
@[simp] theorem State.freshen_keyGens (s : State) : (s.freshen).keyGens = s.keyGens := rfl
@[simp] theorem State.freshen_poison (s : State) : (s.freshen).poison = s.poison := rfl
@[simp] theorem State.freshen_locks (s : State) : (s.freshen).locks = s.locks := rfl
@[simp] theorem State.freshen_bankFlags (s : State) : (s.freshen).bankFlags = s.bankFlags := rfl
@[simp] theorem State.freshen_serial (s : State) : (s.freshen).serial = s.serial := rfl
@[simp] theorem State.freshen_serialBank (s : State) : (s.freshen).serialBank = s.serialBank := rfl
@[simp] theorem State.freshen_queueWaits (s : State) : (s.freshen).queueWaits = s.queueWaits := rfl
@[simp] theorem State.freshen_landWindows (s : State) : (s.freshen).landWindows = s.landWindows := rfl
@[simp] theorem State.freshen_circuits (s : State) : (s.freshen).circuits = s.circuits := rfl
@[simp] theorem State.freshen_tasks (s : State) : (s.freshen).tasks = s.tasks := rfl
@[simp] theorem State.freshen_nextTask (s : State) : (s.freshen).nextTask = s.nextTask := rfl
@[simp] theorem State.freshen_towers (s : State) : (s.freshen).towers = s.towers := rfl
@[simp] theorem State.freshen_hoops (s : State) : (s.freshen).hoops = s.hoops := rfl
@[simp] theorem State.freshen_reserved (s : State) : (s.freshen).reserved = s.reserved := rfl
@[simp] theorem State.freshen_frozenNodes (s : State) : (s.freshen).frozenNodes = s.frozenNodes := rfl
@[simp] theorem State.freshen_collectives (s : State) : (s.freshen).collectives = s.collectives := rfl
@[simp] theorem State.freshen_works (s : State) : (s.freshen).works = s.works := rfl
@[simp] theorem State.freshen_links (s : State) : (s.freshen).links = s.links := rfl
@[simp] theorem State.freshen_sensors (s : State) : (s.freshen).sensors = s.sensors := rfl
@[simp] theorem State.freshen_trips (s : State) : (s.freshen).trips = s.trips := rfl
@[simp] theorem State.freshen_hotDies (s : State) : (s.freshen).hotDies = s.hotDies := rfl
@[simp] theorem State.freshen_bobbin (s : State) : (s.freshen).bobbin = s.bobbin := rfl
@[simp] theorem State.freshen_bringUp (s : State) : (s.freshen).bringUp = s.bringUp := rfl
@[simp] theorem State.freshen_pumpsStalled (s : State) : (s.freshen).pumpsStalled = s.pumpsStalled := rfl
@[simp] theorem State.freshen_capReached (s : State) : (s.freshen).capReached = s.capReached := rfl
@[simp] theorem State.freshen_windowFeed (s : State) : (s.freshen).windowFeed = s.windowFeed := rfl
@[simp] theorem State.freshen_verif (s : State) : (s.freshen).verif = s.verif := rfl
@[simp] theorem State.freshen_node (s : State) : (s.freshen).node = s.node := rfl
@[simp] theorem State.freshen_run (s : State) : (s.freshen).run = s.run := rfl
@[simp] theorem State.freshen_rstcause (s : State) : (s.freshen).rstcause = s.rstcause := rfl
@[simp] theorem State.freshen_refusedNext (s : State) : (s.freshen).refusedNext = s.refusedNext := rfl
@[simp] theorem State.freshen_pool (s : State) : (s.freshen).pool = s.pool := rfl
@[simp] theorem State.freshen_thrw (s : State) : (s.freshen).thrw = s.thrw := rfl
@[simp] theorem State.freshen_feedcap (s : State) : (s.freshen).feedcap = s.feedcap := rfl
@[simp] theorem State.freshen_asbase (s : State) : (s.freshen).asbase = s.asbase := rfl
@[simp] theorem State.freshen_tlbAsid (s : State) : (s.freshen).tlbAsid = s.tlbAsid := rfl
@[simp] theorem State.freshen_tlbVa (s : State) : (s.freshen).tlbVa = s.tlbVa := rfl
@[simp] theorem State.freshen_tlbMode (s : State) : (s.freshen).tlbMode = s.tlbMode := rfl
@[simp] theorem State.freshen_tlbBusy (s : State) : (s.freshen).tlbBusy = s.tlbBusy := rfl
@[simp] theorem State.freshen_el (s : State) : (s.freshen).el = s.el := rfl
@[simp] theorem State.freshen_incfg (s : State) : (s.freshen).incfg = s.incfg := rfl
@[simp] theorem State.freshen_egcfg (s : State) : (s.freshen).egcfg = s.egcfg := rfl
@[simp] theorem State.freshen_outbox (s : State) : (s.freshen).outbox = s.outbox := rfl

@[simp] theorem State.idle_agenda (s : State) : (s.idle).agenda = s.agenda := rfl
@[simp] theorem State.idle_choices (s : State) : (s.idle).choices = s.choices := rfl
@[simp] theorem State.idle_fresh (s : State) : (s.idle).fresh = s.fresh := rfl
@[simp] theorem State.idle_time (s : State) : (s.idle).time = s.time := rfl
@[simp] theorem State.idle_mem (s : State) : (s.idle).mem = s.mem := rfl
@[simp] theorem State.idle_words (s : State) : (s.idle).words = s.words := rfl
@[simp] theorem State.idle_lineKeys (s : State) : (s.idle).lineKeys = s.lineKeys := rfl
@[simp] theorem State.idle_keyGens (s : State) : (s.idle).keyGens = s.keyGens := rfl
@[simp] theorem State.idle_poison (s : State) : (s.idle).poison = s.poison := rfl
@[simp] theorem State.idle_locks (s : State) : (s.idle).locks = s.locks := rfl
@[simp] theorem State.idle_bankFlags (s : State) : (s.idle).bankFlags = s.bankFlags := rfl
@[simp] theorem State.idle_serial (s : State) : (s.idle).serial = s.serial := rfl
@[simp] theorem State.idle_serialBank (s : State) : (s.idle).serialBank = s.serialBank := rfl
@[simp] theorem State.idle_queueWaits (s : State) : (s.idle).queueWaits = s.queueWaits := rfl
@[simp] theorem State.idle_landWindows (s : State) : (s.idle).landWindows = s.landWindows := rfl
@[simp] theorem State.idle_circuits (s : State) : (s.idle).circuits = s.circuits := rfl
@[simp] theorem State.idle_tasks (s : State) : (s.idle).tasks = s.tasks := rfl
@[simp] theorem State.idle_nextTask (s : State) : (s.idle).nextTask = s.nextTask := rfl
@[simp] theorem State.idle_towers (s : State) : (s.idle).towers = s.towers := rfl
@[simp] theorem State.idle_hoops (s : State) : (s.idle).hoops = s.hoops := rfl
@[simp] theorem State.idle_reserved (s : State) : (s.idle).reserved = s.reserved := rfl
@[simp] theorem State.idle_frozenNodes (s : State) : (s.idle).frozenNodes = s.frozenNodes := rfl
@[simp] theorem State.idle_collectives (s : State) : (s.idle).collectives = s.collectives := rfl
@[simp] theorem State.idle_works (s : State) : (s.idle).works = s.works := rfl
@[simp] theorem State.idle_links (s : State) : (s.idle).links = s.links := rfl
@[simp] theorem State.idle_sensors (s : State) : (s.idle).sensors = s.sensors := rfl
@[simp] theorem State.idle_trips (s : State) : (s.idle).trips = s.trips := rfl
@[simp] theorem State.idle_hotDies (s : State) : (s.idle).hotDies = s.hotDies := rfl
@[simp] theorem State.idle_bobbin (s : State) : (s.idle).bobbin = s.bobbin := rfl
@[simp] theorem State.idle_bringUp (s : State) : (s.idle).bringUp = s.bringUp := rfl
@[simp] theorem State.idle_pumpsStalled (s : State) : (s.idle).pumpsStalled = s.pumpsStalled := rfl
@[simp] theorem State.idle_capReached (s : State) : (s.idle).capReached = s.capReached := rfl
@[simp] theorem State.idle_windowFeed (s : State) : (s.idle).windowFeed = s.windowFeed := rfl
@[simp] theorem State.idle_verif (s : State) : (s.idle).verif = s.verif := rfl
@[simp] theorem State.idle_node (s : State) : (s.idle).node = s.node := rfl
@[simp] theorem State.idle_run (s : State) : (s.idle).run = s.run := rfl
@[simp] theorem State.idle_rstcause (s : State) : (s.idle).rstcause = s.rstcause := rfl
@[simp] theorem State.idle_refusedNext (s : State) : (s.idle).refusedNext = s.refusedNext := rfl
@[simp] theorem State.idle_pool (s : State) : (s.idle).pool = s.pool := rfl
@[simp] theorem State.idle_thrw (s : State) : (s.idle).thrw = s.thrw := rfl
@[simp] theorem State.idle_feedcap (s : State) : (s.idle).feedcap = s.feedcap := rfl
@[simp] theorem State.idle_asbase (s : State) : (s.idle).asbase = s.asbase := rfl
@[simp] theorem State.idle_tlbAsid (s : State) : (s.idle).tlbAsid = s.tlbAsid := rfl
@[simp] theorem State.idle_tlbVa (s : State) : (s.idle).tlbVa = s.tlbVa := rfl
@[simp] theorem State.idle_tlbMode (s : State) : (s.idle).tlbMode = s.tlbMode := rfl
@[simp] theorem State.idle_tlbBusy (s : State) : (s.idle).tlbBusy = s.tlbBusy := rfl
@[simp] theorem State.idle_el (s : State) : (s.idle).el = s.el := rfl
@[simp] theorem State.idle_incfg (s : State) : (s.idle).incfg = s.incfg := rfl
@[simp] theorem State.idle_egcfg (s : State) : (s.idle).egcfg = s.egcfg := rfl
@[simp] theorem State.idle_outbox (s : State) : (s.idle).outbox = s.outbox := rfl

@[simp] theorem State.take_choices (s : State) (k : Nat) (it : Item) : (s.take k it).choices = s.choices := rfl
@[simp] theorem State.take_fresh (s : State) (k : Nat) (it : Item) : (s.take k it).fresh = s.fresh := rfl
@[simp] theorem State.take_time (s : State) (k : Nat) (it : Item) : (s.take k it).time = s.time := rfl
@[simp] theorem State.take_mem (s : State) (k : Nat) (it : Item) : (s.take k it).mem = s.mem := rfl
@[simp] theorem State.take_words (s : State) (k : Nat) (it : Item) : (s.take k it).words = s.words := rfl
@[simp] theorem State.take_lineKeys (s : State) (k : Nat) (it : Item) : (s.take k it).lineKeys = s.lineKeys := rfl
@[simp] theorem State.take_keyGens (s : State) (k : Nat) (it : Item) : (s.take k it).keyGens = s.keyGens := rfl
@[simp] theorem State.take_poison (s : State) (k : Nat) (it : Item) : (s.take k it).poison = s.poison := rfl
@[simp] theorem State.take_locks (s : State) (k : Nat) (it : Item) : (s.take k it).locks = s.locks := rfl
@[simp] theorem State.take_bankFlags (s : State) (k : Nat) (it : Item) : (s.take k it).bankFlags = s.bankFlags := rfl
@[simp] theorem State.take_serial (s : State) (k : Nat) (it : Item) : (s.take k it).serial = s.serial := rfl
@[simp] theorem State.take_serialBank (s : State) (k : Nat) (it : Item) : (s.take k it).serialBank = s.serialBank := rfl
@[simp] theorem State.take_queueWaits (s : State) (k : Nat) (it : Item) : (s.take k it).queueWaits = s.queueWaits := rfl
@[simp] theorem State.take_landWindows (s : State) (k : Nat) (it : Item) : (s.take k it).landWindows = s.landWindows := rfl
@[simp] theorem State.take_circuits (s : State) (k : Nat) (it : Item) : (s.take k it).circuits = s.circuits := rfl
@[simp] theorem State.take_tasks (s : State) (k : Nat) (it : Item) : (s.take k it).tasks = s.tasks := rfl
@[simp] theorem State.take_nextTask (s : State) (k : Nat) (it : Item) : (s.take k it).nextTask = s.nextTask := rfl
@[simp] theorem State.take_towers (s : State) (k : Nat) (it : Item) : (s.take k it).towers = s.towers := rfl
@[simp] theorem State.take_hoops (s : State) (k : Nat) (it : Item) : (s.take k it).hoops = s.hoops := rfl
@[simp] theorem State.take_reserved (s : State) (k : Nat) (it : Item) : (s.take k it).reserved = s.reserved := rfl
@[simp] theorem State.take_frozenNodes (s : State) (k : Nat) (it : Item) : (s.take k it).frozenNodes = s.frozenNodes := rfl
@[simp] theorem State.take_collectives (s : State) (k : Nat) (it : Item) : (s.take k it).collectives = s.collectives := rfl
@[simp] theorem State.take_works (s : State) (k : Nat) (it : Item) : (s.take k it).works = s.works := rfl
@[simp] theorem State.take_links (s : State) (k : Nat) (it : Item) : (s.take k it).links = s.links := rfl
@[simp] theorem State.take_sensors (s : State) (k : Nat) (it : Item) : (s.take k it).sensors = s.sensors := rfl
@[simp] theorem State.take_trips (s : State) (k : Nat) (it : Item) : (s.take k it).trips = s.trips := rfl
@[simp] theorem State.take_hotDies (s : State) (k : Nat) (it : Item) : (s.take k it).hotDies = s.hotDies := rfl
@[simp] theorem State.take_bobbin (s : State) (k : Nat) (it : Item) : (s.take k it).bobbin = s.bobbin := rfl
@[simp] theorem State.take_bringUp (s : State) (k : Nat) (it : Item) : (s.take k it).bringUp = s.bringUp := rfl
@[simp] theorem State.take_pumpsStalled (s : State) (k : Nat) (it : Item) : (s.take k it).pumpsStalled = s.pumpsStalled := rfl
@[simp] theorem State.take_capReached (s : State) (k : Nat) (it : Item) : (s.take k it).capReached = s.capReached := rfl
@[simp] theorem State.take_windowFeed (s : State) (k : Nat) (it : Item) : (s.take k it).windowFeed = s.windowFeed := rfl
@[simp] theorem State.take_verif (s : State) (k : Nat) (it : Item) : (s.take k it).verif = s.verif := rfl
@[simp] theorem State.take_node (s : State) (k : Nat) (it : Item) : (s.take k it).node = s.node := rfl
@[simp] theorem State.take_run (s : State) (k : Nat) (it : Item) : (s.take k it).run = s.run := rfl
@[simp] theorem State.take_rstcause (s : State) (k : Nat) (it : Item) : (s.take k it).rstcause = s.rstcause := rfl
@[simp] theorem State.take_refusedNext (s : State) (k : Nat) (it : Item) : (s.take k it).refusedNext = s.refusedNext := rfl
@[simp] theorem State.take_pool (s : State) (k : Nat) (it : Item) : (s.take k it).pool = s.pool := rfl
@[simp] theorem State.take_thrw (s : State) (k : Nat) (it : Item) : (s.take k it).thrw = s.thrw := rfl
@[simp] theorem State.take_feedcap (s : State) (k : Nat) (it : Item) : (s.take k it).feedcap = s.feedcap := rfl
@[simp] theorem State.take_asbase (s : State) (k : Nat) (it : Item) : (s.take k it).asbase = s.asbase := rfl
@[simp] theorem State.take_tlbAsid (s : State) (k : Nat) (it : Item) : (s.take k it).tlbAsid = s.tlbAsid := rfl
@[simp] theorem State.take_tlbVa (s : State) (k : Nat) (it : Item) : (s.take k it).tlbVa = s.tlbVa := rfl
@[simp] theorem State.take_tlbMode (s : State) (k : Nat) (it : Item) : (s.take k it).tlbMode = s.tlbMode := rfl
@[simp] theorem State.take_tlbBusy (s : State) (k : Nat) (it : Item) : (s.take k it).tlbBusy = s.tlbBusy := rfl
@[simp] theorem State.take_el (s : State) (k : Nat) (it : Item) : (s.take k it).el = s.el := rfl
@[simp] theorem State.take_incfg (s : State) (k : Nat) (it : Item) : (s.take k it).incfg = s.incfg := rfl
@[simp] theorem State.take_egcfg (s : State) (k : Nat) (it : Item) : (s.take k it).egcfg = s.egcfg := rfl
@[simp] theorem State.take_outbox (s : State) (k : Nat) (it : Item) : (s.take k it).outbox = s.outbox := rfl

/-! What the updates change -/

@[simp] theorem State.withTask_tasks (s : State) (id : Nat) (f : Task → Task) :
    (s.withTask id f).tasks = modifyWhere (fun t => t.id == id) f s.tasks := rfl
@[simp] theorem State.withHoop_hoops (s : State) (h : Nat) (f : Hoop → Hoop) : (s.withHoop h f).hoops = s.hoops.modify h f := rfl
@[simp] theorem State.withTower_towers (s : State) (k : Nat) (f : Tower → Tower) :
    (s.withTower k f).towers = s.towers.modify k f := rfl
@[simp] theorem State.push_agenda (s : State) (e : Instr) : (s.push e).agenda = s.agenda ++ [.event e] := rfl
@[simp] theorem State.pushAll_agenda (s : State) (es : List Instr) :
    (s.pushAll es).agenda = s.agenda ++ es.map Item.event := rfl
@[simp] theorem State.pushFiring_agenda (s : State) (g : Firing) : (s.pushFiring g).agenda = s.agenda ++ [.firing g] := rfl
@[simp] theorem State.send_outbox (s : State) (m : OutMsg) : (s.send m).outbox = s.outbox ++ [m] := rfl
@[simp] theorem State.freshen_fresh (s : State) : s.freshen.fresh = s.fresh + 1 := rfl
@[simp] theorem State.take_agenda (s : State) (k : Nat) (it : Item) : (s.take k it).agenda = s.agenda.eraseIdx k := rfl
@[simp] theorem State.take_cursor (s : State) (k : Nat) (it : Item) : (s.take k it).cursor = 0 := rfl
@[simp] theorem State.take_cur (s : State) (k : Nat) (it : Item) : (s.take k it).cur = some (it, k) := rfl
@[simp] theorem State.idle_cursor (s : State) : s.idle.cursor = 0 := rfl
@[simp] theorem State.idle_cur (s : State) : s.idle.cur = none := rfl

end Sys2Proof.Machine
end

