-- ==== Sys2Proof/Laws/Ops.lean ====
section
/-!
SUPPORT. What the shared operations do: looking a task up after an update, debits and firing counts in store mode, the
word loop, and what each operation leaves alone.
-/

namespace Sys2Proof.Machine

/-! ### Looking records up after an update -/

theorem find_modifyWhere {α : Type} (p q : α → Bool) (f : α → α) (hf : ∀ x, p (f x) = p x) (l : List α) :
    (modifyWhere q f l).find? p = (l.find? p).map fun x => if q x then f x else x := by
  induction l with
  | nil => rfl
  | cons x l ih =>
    have hp : p (if q x then f x else x) = p x := by split <;> simp [hf]
    simp only [modifyWhere, List.map_cons, List.find?_cons, hp] at ih ⊢
    split
    · rfl
    · exact ih

/-- The task after an update that keeps its number. -/
theorem State.withTask_task? (s : State) (id : Nat) (f : Task → Task) (hf : ∀ t, (f t).id = t.id) :
    (s.withTask id f).task? id = (s.task? id).map f := by
  unfold State.task? State.withTask
  simp only
  rw [find_modifyWhere _ _ _ (fun x => by simp [hf])]
  cases h : s.tasks.find? fun t => t.id == id with
  | none => rfl
  | some t =>
    have := List.find?_some h
    simp only [beq_iff_eq] at this
    simp [this]

/-- Every other task is untouched. -/
theorem State.withTask_other (s : State) (id id' : Nat) (f : Task → Task) (hf : ∀ t, (f t).id = t.id) (h : id' ≠ id) :
    (s.withTask id f).task? id' = s.task? id' := by
  unfold State.task? State.withTask
  simp only
  rw [find_modifyWhere _ _ _ (fun x => by simp [hf])]
  cases hx : s.tasks.find? fun t => t.id == id' with
  | none => rfl
  | some t =>
    have ht := List.find?_some hx
    simp only [beq_iff_eq] at ht
    have : ¬t.id = id := by rw [ht]; exact h
    simp [this]

@[simp] theorem State.withHoop_task? (s : State) (h id : Nat) (f : Hoop → Hoop) : (s.withHoop h f).task? id = s.task? id := rfl
@[simp] theorem State.withTower_task? (s : State) (k id : Nat) (f : Tower → Tower) : (s.withTower k f).task? id = s.task? id := rfl
@[simp] theorem State.withDomain_task? (s : State) (h d id : Nat) (f : Domain → Domain) :
    (s.withDomain h d f).task? id = s.task? id := rfl
@[simp] theorem State.withDomain_tasks (s : State) (h d : Nat) (f : Domain → Domain) : (s.withDomain h d f).tasks = s.tasks := rfl
@[simp] theorem State.withDomain_mem (s : State) (h d : Nat) (f : Domain → Domain) : (s.withDomain h d f).mem = s.mem := rfl
@[simp] theorem State.withEngine_mem (s : State) (k e : Nat) (f : Engine → Engine) : (s.withEngine k e f).mem = s.mem := rfl
@[simp] theorem State.withJoin_mem (s : State) (k : Nat) (f : JoinEngine → JoinEngine) : (s.withJoin k f).mem = s.mem := rfl
@[simp] theorem State.push_task? (s : State) (e : Instr) (id : Nat) : (s.push e).task? id = s.task? id := rfl
@[simp] theorem State.pushAll_task? (s : State) (es : List Instr) (id : Nat) : (s.pushAll es).task? id = s.task? id := rfl
@[simp] theorem State.freshen_task? (s : State) (id : Nat) : s.freshen.task? id = s.task? id := rfl
@[simp] theorem State.send_task? (s : State) (m : OutMsg) (id : Nat) : (s.send m).task? id = s.task? id := rfl
@[simp] theorem State.take_task? (s : State) (k : Nat) (it : Item) (id : Nat) : (s.take k it).task? id = s.task? id := rfl

/-! ### The agenda's own operations -/

@[simp] theorem State.block_mem (s : State) : s.block.mem = s.mem := by unfold State.block; split <;> rfl
@[simp] theorem State.block_tasks (s : State) : s.block.tasks = s.tasks := by unfold State.block; split <;> rfl
@[simp] theorem State.block_words (s : State) : s.block.words = s.words := by unfold State.block; split <;> rfl
@[simp] theorem State.become_mem (s : State) (e : Instr) : (s.become e).mem = s.mem := by unfold State.become; split <;> rfl
@[simp] theorem State.become_tasks (s : State) (e : Instr) : (s.become e).tasks = s.tasks := by unfold State.become; split <;> rfl
@[simp] theorem State.pick_mem (s : State) (n : Nat) : (s.pick n).2.mem = s.mem := by unfold State.pick; split <;> rfl
@[simp] theorem State.pick_tasks (s : State) (n : Nat) : (s.pick n).2.tasks = s.tasks := by unfold State.pick; split <;> rfl

/-! ### Debits and counts in store mode (R359, R362, R467) -/

/-- A debit of a task in store mode changes nothing (R359). -/
theorem State.debit_store (s : State) (id dom units : Nat) (t : Task) (ht : s.task? id = some t) (hs : t.schedule = false) :
    s.debit id dom units = .ok s := by simp [State.debit, ht, hs]

theorem State.debits_store (s : State) (id dom units n : Nat) (t : Task) (ht : s.task? id = some t)
    (hs : t.schedule = false) : s.debits id dom units n = .ok s := by
  induction n with
  | zero => rfl
  | succ n ih => simp [State.debits, State.debit_store s id dom units t ht hs, ih]

/-- A debit in schedule mode, where the account covers it (R362, R363). -/
theorem State.debit_schedule (s : State) (id dom units : Nat) (t : Task) (ht : s.task? id = some t)
    (hs : t.schedule = true) (hc : (units * s.debitMv t.hoop dom + 799) / 800 ≤ t.account) :
    s.debit id dom units = .ok (s.withTask id fun t =>
      { t with account := t.account - (units * s.debitMv ((s.task? id).elim 0 (·.hoop)) dom + 799) / 800,
               delivered := t.delivered + (units * s.debitMv ((s.task? id).elim 0 (·.hoop)) dom + 799) / 800 }) := by
  simp [State.debit, ht, hs, Nat.not_lt.2 hc]

/-- A firing of one word in store mode counts it and does nothing else. -/
theorem State.fireWord_store (s : State) (g : Firing) (cls : CostClass) (n : Nat) (t : Task) (ht : s.task? g.task = some t)
    (hs : t.schedule = false) : s.fireWord g cls n = .ok (s.countFire g.task (t.domainOf g.site)) := by
  simp [State.fireWord, ht, State.debits_store s g.task _ _ _ t ht hs]

theorem State.debitAt_store (s : State) (g : Firing) (cls : CostClass) (t : Task) (ht : s.task? g.task = some t)
    (hs : t.schedule = false) : s.debitAt g cls = .ok (s.withTask g.task fun t => { t with quiet := 0 }) := by
  simp [State.debitAt, ht, State.debits_store s g.task _ _ _ t ht hs]

theorem State.debitLines_store (s : State) (g : Firing) (dom : Nat) (c : LineClass) (n : Nat) (t : Task)
    (ht : s.task? g.task = some t) (hs : t.schedule = false) : s.debitLines g dom c n = .ok s := by
  simp [State.debitLines, State.debits_store s g.task _ _ _ t ht hs]

/-- The count of a word, at a task that is there. -/
theorem State.countFire_def (s : State) (id dom : Nat) (t : Task) (ht : s.task? id = some t) :
    s.countFire id dom =
      (s.withDomain t.hoop dom fun d => { d with fire := d.fire + 1 }).withTask id fun t => { t with quiet := 0 } := by
  simp [State.countFire, ht]

theorem State.countFire_task? (s : State) (id dom : Nat) (t : Task) (ht : s.task? id = some t) :
    (s.countFire id dom).task? id = some { t with quiet := 0 } := by
  rw [State.countFire_def s id dom t ht, State.withTask_task?]
  · simp [ht]
  · intro; rfl

@[simp] theorem State.countFire_mem (s : State) (id dom : Nat) : (s.countFire id dom).mem = s.mem := by
  unfold State.countFire; split <;> rfl

/-- Raising flags keeps the task but for its instances. -/
theorem State.raiseFlags_task? (s : State) (id : Nat) (k : InstKey) (fl : BitVec 5) (t : Task) (ht : s.task? id = some t) :
    ∃ u, (s.raiseFlags id k fl).task? id = some u ∧ u.schedule = t.schedule ∧ u.quads = t.quads ∧ u.hoop = t.hoop := by
  unfold State.raiseFlags
  split
  · exact ⟨t, ht, rfl, rfl, rfl⟩
  · rw [State.withTask_task? _ _ _ (fun t => by unfold Task.withInst; rfl), ht]
    exact ⟨_, rfl, rfl, rfl, rfl⟩

/-- The metered domain of a site depends on a task's quadrants alone. -/
theorem Task.domainOf_quads (t u : Task) (x : Site) (h : u.quads = t.quads) : u.domainOf x = t.domainOf x := by
  cases x <;> simp [Task.domainOf, Task.lowQuad, h]

/-! ### The word loop (R46, R135) -/

/-- Words that all complete: the states follow one another and each leaves its result. `P` is kept on the way. -/
theorem wordLoop_ok (f : WordStep) (h : Nat → State → State) (o : Nat → Out) (P : State → Prop)
    (hf : ∀ j s, P s → f j s = .ok (h j s, o j)) (hP : ∀ j s, P s → P (h j s)) (n j : Nat) (s : State) (hs : P s) :
    wordLoop f s j n = .ok ((List.range' j n).foldl (fun s k => h k s) s, (List.range' j n).map o) := by
  induction n generalizing s j with
  | zero => rfl
  | succ n ih => simp [wordLoop, hf j s hs, ih (j + 1) (h j s) (hP j s hs), List.range'_succ]

end Sys2Proof.Machine
end

