-- ==== Sys2Proof/Laws/Firing.lean ====
section
/-!
SUPPORT. A set whose words all fire in store mode: what the word loop of the compute instructions leaves, said once in the
terms of the statements.
-/

open Sys2Proof.Claims

namespace Sys2Proof.Machine

/-- The task of a set is still there in store mode, on the same quadrants. -/
def StaysLive (g : Firing) (t : Task) (s : State) : Prop :=
  ∃ u, s.task? g.task = some u ∧ u.schedule = false ∧ u.quads = t.quads ∧ u.hoop = t.hoop

theorem StaysLive_countFire {g : Firing} {t : Task} {s : State} (h : StaysLive g t s) :
    StaysLive g t (s.countFire g.task (t.domainOf g.site)) := by
  obtain ⟨u, h1, h2, h3, h4⟩ := h
  exact ⟨_, State.countFire_task? _ _ _ _ h1, h2, h3, h4⟩

theorem StaysLive_raiseFlags {g : Firing} {t : Task} {s : State} (k : InstKey) (fl : BitVec 5) (h : StaysLive g t s) :
    StaysLive g t (s.raiseFlags g.task k fl) := by
  obtain ⟨u, h1, h2, h3, h4⟩ := h
  obtain ⟨v, a, b, c, d⟩ := State.raiseFlags_task? s g.task k fl u h1
  exact ⟨v, a, b.trans h2, c.trans h3, d.trans h4⟩

theorem fireWord_live {g : Firing} {t : Task} {s : State} (h : StaysLive g t s) (c : CostClass) (n : Nat) :
    s.fireWord g c n = .ok (s.countFire g.task (t.domainOf g.site)) := by
  obtain ⟨u, h1, h2, h3, h4⟩ := h
  rw [State.fireWord_store s g c n u h1 h2, Task.domainOf_quads t u _ h3]

/-- How many words fire now is a choice alone: at least one, where one is left, and no more than are left; the task is untouched. -/
theorem wordsNow_bounds (s : State) (n : Nat) (h : 0 < n) : 0 < (s.wordsNow n).1 ∧ (s.wordsNow n).1 ≤ n := by
  unfold State.wordsNow
  split
  · exact ⟨h, Nat.le_refl n⟩
  · cases hc : s.choices with
    | nil => simp [State.pick, hc, h]
    | cons c cs =>
      have := Nat.mod_lt c h
      simp [State.pick, hc]; omega

theorem State.wordsNow_tasks (s : State) (n : Nat) : (s.wordsNow n).2.tasks = s.tasks := by
  unfold State.wordsNow
  split
  · rfl
  · exact State.pick_tasks s n

theorem StaysLive_wordsNow {g : Firing} {t : Task} {s : State} (n : Nat) (h : StaysLive g t s) : StaysLive g t (s.wordsNow n).2 := by
  simpa only [StaysLive, State.task?, State.wordsNow_tasks] using h

/-- A compute instruction in store mode, on the words that fire now: the results of its performing words, NULL for the others, and
their flags. -/
theorem compute_store (i : Instr) (fmt : BitVec 3) (op : Word → Word → Word → Word × BitVec 5) (s : State) (g : Firing) (t : Task)
    (h : StaysLive g t s) : compute i fmt op g s = computed i fmt op g t s := by
  unfold compute fireWords computed firesWords
  simp only
  rw [wordLoop_ok _ (fun j s => (s.countFire g.task (t.domainOf g.site)).raiseFlags g.task (g.instAt j)
        (if performs i g j then (op (opA i g j) (opB i g j) (opC i g j)).2 else 0))
      (fun j => if performs i g j then .data fmt (op (opA i g j) (opB i g j) (opC i g j)).1 else .null) (StaysLive g t)]
  · intro j s hs
    unfold computeStep
    split
    · rw [fireWord_live hs]; simp [opA, opB, opC, *]
    · simp [nullStep, fireWord_live hs, *, State.raiseFlags]
  · intro j s hs; exact StaysLive_raiseFlags _ _ (StaysLive_countFire hs)
  · exact StaysLive_wordsNow _ h

/-- An integer instruction in store mode. -/
theorem integerOp_store (i : Instr) (op : Word → Word → Word → Word) (s : State) (g : Firing) (t : Task) (h : Fires s g t) :
    integerOp i op s = .next (computed i 0 (fun a b c => (op a b c, 0)) g t s) := by
  unfold integerOp withFiring
  rw [h.1]
  simp only
  rw [compute_store i 0 _ s g t ⟨t, h.2.1, h.2.2, rfl, rfl⟩]

/-- A floating-point instruction with an F32 result in store mode. -/
theorem floatOp_store (i : Instr) (op : Word → Word → Word → Word × BitVec 5) (s : State) (g : Firing) (t : Task) (h : Fires s g t) :
    floatOp i op s = .next (computed i 1 op g t s) := by
  unfold floatOp withFiring
  rw [h.1]
  simp only
  rw [compute_store i 1 op s g t ⟨t, h.2.1, h.2.2, rfl, rfl⟩]

end Sys2Proof.Machine
end

