-- ==== Sys2Proof/Laws/PerInstr.lean ====
section
/-!
SUPPORT. Per-instruction facts about encodings: the opcode of every instruction's word is one that R94 assigns, none of
those that R95 refuses.
-/

open Sys2Proof

namespace Sys2Proof.Laws

/-- The high bits of two joined fields are the first's. -/
theorem extract_high {n m k : Nat} (x : BitVec n) (y : BitVec m) (h : m ≤ k) (l : Nat) :
    (x ++ y).extractLsb' k l = x.extractLsb' (k - m) l := by
  apply BitVec.eq_of_getLsbD_eq
  intro i hi
  simp only [BitVec.getLsbD_extractLsb', BitVec.getLsbD_append, hi, decide_true, Bool.true_and]
  have : ¬ (k + i < m) := by omega
  simp only [this, if_false]
  congr 1
  omega

theorem opcOf_encodeStd (opc : BitVec 7) (f : StdForm) : opcOf (encodeStd opc f) = opc := by
  unfold opcOf encodeStd
  repeat rw [extract_high _ _ (by decide)]
  simp

theorem opcOf_encodeS (opc : BitVec 7) (m : BitVec 4) (f : SForm) : opcOf (encodeS opc m f) = opc := by
  unfold opcOf encodeS
  repeat rw [extract_high _ _ (by decide)]
  simp

theorem opcOf_encodeRw (opc : BitVec 7) (f : RwForm) : opcOf (encodeRw opc f) = opc := by
  unfold opcOf encodeRw
  repeat rw [extract_high _ _ (by decide)]
  simp

theorem opcOf_encodeX (opc : BitVec 7) (sub : BitVec 6) (f : XForm) : opcOf (encodeX opc sub f) = opc := by
  unfold opcOf encodeX
  repeat rw [extract_high _ _ (by decide)]
  simp

theorem opcOf_encodeExit (e : BitVec 3) : opcOf (encodeExit e) = 0x4C := by
  unfold opcOf encodeExit
  repeat rw [extract_high _ _ (by decide)]
  simp

/-- The word of an instruction, where it has one, carries an opcode that R95 does not refuse. -/
def OpcodeStands.Statement (i : Instr) : Prop := ∀ w, encodeWord i = some w → opcodeRefused (opcOf w).toNat = false

/-- What one encoding shows of the statement. -/
theorem opcode_stands {i : Instr} {w : Word} {opc : BitVec 7} (h : encodeWord i = some w) (ho : opcOf w = opc)
    (hr : opcodeRefused opc.toNat = false) : OpcodeStands.Statement i := by
  intro v hv
  rw [h] at hv
  cases hv
  rw [ho, hr]

/-- An event has no word. -/
theorem event_stands {i : Instr} (h : encodeWord i = none) : OpcodeStands.Statement i := by
  intro v hv
  rw [h] at hv
  cases hv

theorem OpcodeStands.add (f : StdForm) : OpcodeStands.Statement (.add f) := opcode_stands rfl (opcOf_encodeStd ..) rfl
theorem OpcodeStands.sub (f : StdForm) : OpcodeStands.Statement (.sub f) := opcode_stands rfl (opcOf_encodeStd ..) rfl
theorem OpcodeStands.adds (f : StdForm) : OpcodeStands.Statement (.adds f) := opcode_stands rfl (opcOf_encodeStd ..) rfl
theorem OpcodeStands.subs (f : StdForm) : OpcodeStands.Statement (.subs f) := opcode_stands rfl (opcOf_encodeStd ..) rfl
theorem OpcodeStands.addus (f : StdForm) : OpcodeStands.Statement (.addus f) := opcode_stands rfl (opcOf_encodeStd ..) rfl
theorem OpcodeStands.subus (f : StdForm) : OpcodeStands.Statement (.subus f) := opcode_stands rfl (opcOf_encodeStd ..) rfl
theorem OpcodeStands.mul (f : StdForm) : OpcodeStands.Statement (.mul f) := opcode_stands rfl (opcOf_encodeStd ..) rfl
theorem OpcodeStands.mulh (f : StdForm) : OpcodeStands.Statement (.mulh f) := opcode_stands rfl (opcOf_encodeStd ..) rfl
theorem OpcodeStands.mulhu (f : StdForm) : OpcodeStands.Statement (.mulhu f) := opcode_stands rfl (opcOf_encodeStd ..) rfl
theorem OpcodeStands.div (f : StdForm) : OpcodeStands.Statement (.div f) := opcode_stands rfl (opcOf_encodeStd ..) rfl
theorem OpcodeStands.divu (f : StdForm) : OpcodeStands.Statement (.divu f) := opcode_stands rfl (opcOf_encodeStd ..) rfl
theorem OpcodeStands.rem (f : StdForm) : OpcodeStands.Statement (.rem f) := opcode_stands rfl (opcOf_encodeStd ..) rfl
theorem OpcodeStands.remu (f : StdForm) : OpcodeStands.Statement (.remu f) := opcode_stands rfl (opcOf_encodeStd ..) rfl
theorem OpcodeStands.and (f : StdForm) : OpcodeStands.Statement (.and f) := opcode_stands rfl (opcOf_encodeStd ..) rfl
theorem OpcodeStands.or (f : StdForm) : OpcodeStands.Statement (.or f) := opcode_stands rfl (opcOf_encodeStd ..) rfl
theorem OpcodeStands.xor (f : StdForm) : OpcodeStands.Statement (.xor f) := opcode_stands rfl (opcOf_encodeStd ..) rfl
theorem OpcodeStands.andn (f : StdForm) : OpcodeStands.Statement (.andn f) := opcode_stands rfl (opcOf_encodeStd ..) rfl
theorem OpcodeStands.shl (f : StdForm) : OpcodeStands.Statement (.shl f) := opcode_stands rfl (opcOf_encodeStd ..) rfl
theorem OpcodeStands.shr (f : StdForm) : OpcodeStands.Statement (.shr f) := opcode_stands rfl (opcOf_encodeStd ..) rfl
theorem OpcodeStands.sar (f : StdForm) : OpcodeStands.Statement (.sar f) := opcode_stands rfl (opcOf_encodeStd ..) rfl
theorem OpcodeStands.rol (f : StdForm) : OpcodeStands.Statement (.rol f) := opcode_stands rfl (opcOf_encodeStd ..) rfl
theorem OpcodeStands.clz (f : StdForm) : OpcodeStands.Statement (.clz f) := opcode_stands rfl (opcOf_encodeStd ..) rfl
theorem OpcodeStands.ctz (f : StdForm) : OpcodeStands.Statement (.ctz f) := opcode_stands rfl (opcOf_encodeStd ..) rfl
theorem OpcodeStands.popc (f : StdForm) : OpcodeStands.Statement (.popc f) := opcode_stands rfl (opcOf_encodeStd ..) rfl
theorem OpcodeStands.brev (f : StdForm) : OpcodeStands.Statement (.brev f) := opcode_stands rfl (opcOf_encodeStd ..) rfl
theorem OpcodeStands.min (f : StdForm) : OpcodeStands.Statement (.min f) := opcode_stands rfl (opcOf_encodeStd ..) rfl
theorem OpcodeStands.max (f : StdForm) : OpcodeStands.Statement (.max f) := opcode_stands rfl (opcOf_encodeStd ..) rfl
theorem OpcodeStands.minu (f : StdForm) : OpcodeStands.Statement (.minu f) := opcode_stands rfl (opcOf_encodeStd ..) rfl
theorem OpcodeStands.maxu (f : StdForm) : OpcodeStands.Statement (.maxu f) := opcode_stands rfl (opcOf_encodeStd ..) rfl
theorem OpcodeStands.abs (f : StdForm) : OpcodeStands.Statement (.abs f) := opcode_stands rfl (opcOf_encodeStd ..) rfl
theorem OpcodeStands.neg (f : StdForm) : OpcodeStands.Statement (.neg f) := opcode_stands rfl (opcOf_encodeStd ..) rfl
theorem OpcodeStands.sel (f : StdForm) : OpcodeStands.Statement (.sel f) := opcode_stands rfl (opcOf_encodeStd ..) rfl
theorem OpcodeStands.extb (f : StdForm) : OpcodeStands.Statement (.extb f) := opcode_stands rfl (opcOf_encodeStd ..) rfl
theorem OpcodeStands.exth (f : StdForm) : OpcodeStands.Statement (.exth f) := opcode_stands rfl (opcOf_encodeStd ..) rfl
theorem OpcodeStands.bfx (f : StdForm) : OpcodeStands.Statement (.bfx f) := opcode_stands rfl (opcOf_encodeStd ..) rfl
theorem OpcodeStands.bfi (f : StdForm) : OpcodeStands.Statement (.bfi f) := opcode_stands rfl (opcOf_encodeStd ..) rfl
theorem OpcodeStands.teq (f : StdForm) : OpcodeStands.Statement (.teq f) := opcode_stands rfl (opcOf_encodeStd ..) rfl
theorem OpcodeStands.tne (f : StdForm) : OpcodeStands.Statement (.tne f) := opcode_stands rfl (opcOf_encodeStd ..) rfl
theorem OpcodeStands.tlt (f : StdForm) : OpcodeStands.Statement (.tlt f) := opcode_stands rfl (opcOf_encodeStd ..) rfl
theorem OpcodeStands.tle (f : StdForm) : OpcodeStands.Statement (.tle f) := opcode_stands rfl (opcOf_encodeStd ..) rfl
theorem OpcodeStands.tltu (f : StdForm) : OpcodeStands.Statement (.tltu f) := opcode_stands rfl (opcOf_encodeStd ..) rfl
theorem OpcodeStands.tleu (f : StdForm) : OpcodeStands.Statement (.tleu f) := opcode_stands rfl (opcOf_encodeStd ..) rfl
theorem OpcodeStands.muladd (f : StdForm) : OpcodeStands.Statement (.muladd f) := opcode_stands rfl (opcOf_encodeStd ..) rfl
theorem OpcodeStands.fadd (f : StdForm) : OpcodeStands.Statement (.fadd f) := opcode_stands rfl (opcOf_encodeStd ..) rfl
theorem OpcodeStands.fsub (f : StdForm) : OpcodeStands.Statement (.fsub f) := opcode_stands rfl (opcOf_encodeStd ..) rfl
theorem OpcodeStands.fmul (f : StdForm) : OpcodeStands.Statement (.fmul f) := opcode_stands rfl (opcOf_encodeStd ..) rfl
theorem OpcodeStands.ffma (f : StdForm) : OpcodeStands.Statement (.ffma f) := opcode_stands rfl (opcOf_encodeStd ..) rfl
theorem OpcodeStands.ffms (f : StdForm) : OpcodeStands.Statement (.ffms f) := opcode_stands rfl (opcOf_encodeStd ..) rfl
theorem OpcodeStands.fmin (f : StdForm) : OpcodeStands.Statement (.fmin f) := opcode_stands rfl (opcOf_encodeStd ..) rfl
theorem OpcodeStands.fmax (f : StdForm) : OpcodeStands.Statement (.fmax f) := opcode_stands rfl (opcOf_encodeStd ..) rfl
theorem OpcodeStands.fabs (f : StdForm) : OpcodeStands.Statement (.fabs f) := opcode_stands rfl (opcOf_encodeStd ..) rfl
theorem OpcodeStands.fneg (f : StdForm) : OpcodeStands.Statement (.fneg f) := opcode_stands rfl (opcOf_encodeStd ..) rfl
theorem OpcodeStands.feq (f : StdForm) : OpcodeStands.Statement (.feq f) := opcode_stands rfl (opcOf_encodeStd ..) rfl
theorem OpcodeStands.flt (f : StdForm) : OpcodeStands.Statement (.flt f) := opcode_stands rfl (opcOf_encodeStd ..) rfl
theorem OpcodeStands.fle (f : StdForm) : OpcodeStands.Statement (.fle f) := opcode_stands rfl (opcOf_encodeStd ..) rfl
theorem OpcodeStands.funo (f : StdForm) : OpcodeStands.Statement (.funo f) := opcode_stands rfl (opcOf_encodeStd ..) rfl
theorem OpcodeStands.fclass (f : StdForm) : OpcodeStands.Statement (.fclass f) := opcode_stands rfl (opcOf_encodeStd ..) rfl
theorem OpcodeStands.frnd (f : StdForm) : OpcodeStands.Statement (.frnd f) := opcode_stands rfl (opcOf_encodeStd ..) rfl
theorem OpcodeStands.fdiv (f : StdForm) : OpcodeStands.Statement (.fdiv f) := opcode_stands rfl (opcOf_encodeStd ..) rfl
theorem OpcodeStands.fsqrt (f : StdForm) : OpcodeStands.Statement (.fsqrt f) := opcode_stands rfl (opcOf_encodeStd ..) rfl
theorem OpcodeStands.frcp (f : StdForm) : OpcodeStands.Statement (.frcp f) := opcode_stands rfl (opcOf_encodeStd ..) rfl
theorem OpcodeStands.frsq (f : StdForm) : OpcodeStands.Statement (.frsq f) := opcode_stands rfl (opcOf_encodeStd ..) rfl
theorem OpcodeStands.fexp2 (f : StdForm) : OpcodeStands.Statement (.fexp2 f) := opcode_stands rfl (opcOf_encodeStd ..) rfl
theorem OpcodeStands.flog2 (f : StdForm) : OpcodeStands.Statement (.flog2 f) := opcode_stands rfl (opcOf_encodeStd ..) rfl
theorem OpcodeStands.mov (f : StdForm) : OpcodeStands.Statement (.mov f) := opcode_stands rfl (opcOf_encodeStd ..) rfl
theorem OpcodeStands.nullTok (f : StdForm) : OpcodeStands.Statement (.nullTok f) := opcode_stands rfl (opcOf_encodeStd ..) rfl
theorem OpcodeStands.steer (f : StdForm) : OpcodeStands.Statement (.steer f) := opcode_stands rfl (opcOf_encodeStd ..) rfl
theorem OpcodeStands.merge (f : StdForm) : OpcodeStands.Statement (.merge f) := opcode_stands rfl (opcOf_encodeStd ..) rfl
theorem OpcodeStands.exit (exit : BitVec 3) : OpcodeStands.Statement (.exit exit) := opcode_stands rfl (opcOf_encodeExit ..) rfl
theorem OpcodeStands.read (f : RwForm) : OpcodeStands.Statement (.read f) := opcode_stands rfl (opcOf_encodeRw ..) rfl
theorem OpcodeStands.write (f : RwForm) : OpcodeStands.Statement (.write f) := opcode_stands rfl (opcOf_encodeRw ..) rfl
theorem OpcodeStands.loopi (f : StdForm) : OpcodeStands.Statement (.loopi f) := opcode_stands rfl (opcOf_encodeStd ..) rfl
theorem OpcodeStands.brk (f : StdForm) : OpcodeStands.Statement (.brk f) := opcode_stands rfl (opcOf_encodeStd ..) rfl
theorem OpcodeStands.call (f : StdForm) : OpcodeStands.Statement (.call f) := opcode_stands rfl (opcOf_encodeStd ..) rfl
theorem OpcodeStands.ret (f : StdForm) : OpcodeStands.Statement (.ret f) := opcode_stands rfl (opcOf_encodeStd ..) rfl
theorem OpcodeStands.iterv (f : StdForm) : OpcodeStands.Statement (.iterv f) := opcode_stands rfl (opcOf_encodeStd ..) rfl
theorem OpcodeStands.ctxv (f : StdForm) : OpcodeStands.Statement (.ctxv f) := opcode_stands rfl (opcOf_encodeStd ..) rfl
theorem OpcodeStands.workid (f : StdForm) : OpcodeStands.Statement (.workid f) := opcode_stands rfl (opcOf_encodeStd ..) rfl
theorem OpcodeStands.pmark (f : StdForm) : OpcodeStands.Statement (.pmark f) := opcode_stands rfl (opcOf_encodeStd ..) rfl
theorem OpcodeStands.comb (f : StdForm) : OpcodeStands.Statement (.comb f) := opcode_stands rfl (opcOf_encodeStd ..) rfl
theorem OpcodeStands.eos (f : StdForm) : OpcodeStands.Statement (.eos f) := opcode_stands rfl (opcOf_encodeStd ..) rfl
theorem OpcodeStands.barr (f : StdForm) : OpcodeStands.Statement (.barr f) := opcode_stands rfl (opcOf_encodeStd ..) rfl
theorem OpcodeStands.bwait (f : StdForm) : OpcodeStands.Statement (.bwait f) := opcode_stands rfl (opcOf_encodeStd ..) rfl
theorem OpcodeStands.fence (f : StdForm) : OpcodeStands.Statement (.fence f) := opcode_stands rfl (opcOf_encodeStd ..) rfl
theorem OpcodeStands.split (f : StdForm) : OpcodeStands.Statement (.split f) := opcode_stands rfl (opcOf_encodeStd ..) rfl
theorem OpcodeStands.join (f : StdForm) : OpcodeStands.Statement (.join f) := opcode_stands rfl (opcOf_encodeStd ..) rfl
theorem OpcodeStands.hdrt (f : StdForm) : OpcodeStands.Statement (.hdrt f) := opcode_stands rfl (opcOf_encodeStd ..) rfl
theorem OpcodeStands.ld (f : SForm) (width : Width) (sx : Bool) : OpcodeStands.Statement (.ld f width sx) := opcode_stands rfl (opcOf_encodeS ..) rfl
theorem OpcodeStands.st (f : SForm) (width : Width) : OpcodeStands.Statement (.st f width) := opcode_stands rfl (opcOf_encodeS ..) rfl
theorem OpcodeStands.ldv (f : SForm) (fmt : BitVec 3) : OpcodeStands.Statement (.ldv f fmt) := opcode_stands rfl (opcOf_encodeS ..) rfl
theorem OpcodeStands.stv (f : SForm) (fmt : BitVec 3) : OpcodeStands.Statement (.stv f fmt) := opcode_stands rfl (opcOf_encodeS ..) rfl
theorem OpcodeStands.sopenRead (f : SForm) (fmt : BitVec 3) : OpcodeStands.Statement (.sopenRead f fmt) := opcode_stands rfl (opcOf_encodeS ..) rfl
theorem OpcodeStands.sopenWrite (f : SForm) (fmt : BitVec 3) : OpcodeStands.Statement (.sopenWrite f fmt) := opcode_stands rfl (opcOf_encodeS ..) rfl
theorem OpcodeStands.sindRead (f : SForm) (fmt : BitVec 3) : OpcodeStands.Statement (.sindRead f fmt) := opcode_stands rfl (opcOf_encodeS ..) rfl
theorem OpcodeStands.sindWrite (f : SForm) (fmt : BitVec 3) : OpcodeStands.Statement (.sindWrite f fmt) := opcode_stands rfl (opcOf_encodeS ..) rfl
theorem OpcodeStands.sclose (f : SForm) : OpcodeStands.Statement (.sclose f) := opcode_stands rfl (opcOf_encodeS ..) rfl
theorem OpcodeStands.sbar (f : SForm) : OpcodeStands.Statement (.sbar f) := opcode_stands rfl (opcOf_encodeS ..) rfl
theorem OpcodeStands.iread (f : SForm) : OpcodeStands.Statement (.iread f) := opcode_stands rfl (opcOf_encodeS ..) rfl
theorem OpcodeStands.iwrite (f : SForm) : OpcodeStands.Statement (.iwrite f) := opcode_stands rfl (opcOf_encodeS ..) rfl
theorem OpcodeStands.iclear (f : SForm) : OpcodeStands.Statement (.iclear f) := opcode_stands rfl (opcOf_encodeS ..) rfl
theorem OpcodeStands.aadd (f : SForm) : OpcodeStands.Statement (.aadd f) := opcode_stands rfl (opcOf_encodeS ..) rfl
theorem OpcodeStands.afadd (f : SForm) : OpcodeStands.Statement (.afadd f) := opcode_stands rfl (opcOf_encodeS ..) rfl
theorem OpcodeStands.amin (f : SForm) : OpcodeStands.Statement (.amin f) := opcode_stands rfl (opcOf_encodeS ..) rfl
theorem OpcodeStands.amax (f : SForm) : OpcodeStands.Statement (.amax f) := opcode_stands rfl (opcOf_encodeS ..) rfl
theorem OpcodeStands.aminu (f : SForm) : OpcodeStands.Statement (.aminu f) := opcode_stands rfl (opcOf_encodeS ..) rfl
theorem OpcodeStands.amaxu (f : SForm) : OpcodeStands.Statement (.amaxu f) := opcode_stands rfl (opcOf_encodeS ..) rfl
theorem OpcodeStands.aand (f : SForm) : OpcodeStands.Statement (.aand f) := opcode_stands rfl (opcOf_encodeS ..) rfl
theorem OpcodeStands.aor (f : SForm) : OpcodeStands.Statement (.aor f) := opcode_stands rfl (opcOf_encodeS ..) rfl
theorem OpcodeStands.axor (f : SForm) : OpcodeStands.Statement (.axor f) := opcode_stands rfl (opcOf_encodeS ..) rfl
theorem OpcodeStands.aswap (f : SForm) : OpcodeStands.Statement (.aswap f) := opcode_stands rfl (opcOf_encodeS ..) rfl
theorem OpcodeStands.acas (f : SForm) : OpcodeStands.Statement (.acas f) := opcode_stands rfl (opcOf_encodeS ..) rfl
theorem OpcodeStands.afmin (f : SForm) : OpcodeStands.Statement (.afmin f) := opcode_stands rfl (opcOf_encodeS ..) rfl
theorem OpcodeStands.afmax (f : SForm) : OpcodeStands.Statement (.afmax f) := opcode_stands rfl (opcOf_encodeS ..) rfl
theorem OpcodeStands.atomsc (f : SForm) (op : BankOp) : OpcodeStands.Statement (.atomsc f op) := opcode_stands rfl (opcOf_encodeS ..) rfl
theorem OpcodeStands.lock (f : SForm) : OpcodeStands.Statement (.lock f) := opcode_stands rfl (opcOf_encodeS ..) rfl
theorem OpcodeStands.unlock (f : SForm) : OpcodeStands.Statement (.unlock f) := opcode_stands rfl (opcOf_encodeS ..) rfl
theorem OpcodeStands.qput (f : SForm) : OpcodeStands.Statement (.qput f) := opcode_stands rfl (opcOf_encodeS ..) rfl
theorem OpcodeStands.qget (f : SForm) : OpcodeStands.Statement (.qget f) := opcode_stands rfl (opcOf_encodeS ..) rfl
theorem OpcodeStands.cvt (f : StdForm) : OpcodeStands.Statement (.cvt f) := opcode_stands rfl (opcOf_encodeStd ..) rfl
theorem OpcodeStands.padd2 (f : StdForm) : OpcodeStands.Statement (.padd2 f) := opcode_stands rfl (opcOf_encodeStd ..) rfl
theorem OpcodeStands.pmul2 (f : StdForm) : OpcodeStands.Statement (.pmul2 f) := opcode_stands rfl (opcOf_encodeStd ..) rfl
theorem OpcodeStands.pfma2 (f : StdForm) : OpcodeStands.Statement (.pfma2 f) := opcode_stands rfl (opcOf_encodeStd ..) rfl
theorem OpcodeStands.dot2 (f : StdForm) : OpcodeStands.Statement (.dot2 f) := opcode_stands rfl (opcOf_encodeStd ..) rfl
theorem OpcodeStands.dot4 (f : StdForm) : OpcodeStands.Statement (.dot4 f) := opcode_stands rfl (opcOf_encodeStd ..) rfl
theorem OpcodeStands.reord (f : StdForm) : OpcodeStands.Statement (.reord f) := opcode_stands rfl (opcOf_encodeStd ..) rfl
theorem OpcodeStands.qsend (f : StdForm) : OpcodeStands.Statement (.qsend f) := opcode_stands rfl (opcOf_encodeStd ..) rfl
theorem OpcodeStands.oslotClaim (f : StdForm) : OpcodeStands.Statement (.oslotClaim f) := opcode_stands rfl (opcOf_encodeStd ..) rfl
theorem OpcodeStands.oslotRelease (f : StdForm) : OpcodeStands.Statement (.oslotRelease f) := opcode_stands rfl (opcOf_encodeStd ..) rfl
theorem OpcodeStands.oploadDense (f : StdForm) : OpcodeStands.Statement (.oploadDense f) := opcode_stands rfl (opcOf_encodeStd ..) rfl
theorem OpcodeStands.oploadSparse (f : StdForm) : OpcodeStands.Statement (.oploadSparse f) := opcode_stands rfl (opcOf_encodeStd ..) rfl
theorem OpcodeStands.oploadCodebook (f : StdForm) : OpcodeStands.Statement (.oploadCodebook f) := opcode_stands rfl (opcOf_encodeStd ..) rfl
theorem OpcodeStands.mma (f : StdForm) : OpcodeStands.Statement (.mma f) := opcode_stands rfl (opcOf_encodeStd ..) rfl
theorem OpcodeStands.accZero (f : StdForm) : OpcodeStands.Statement (.accZero f) := opcode_stands rfl (opcOf_encodeStd ..) rfl
theorem OpcodeStands.accRead (f : StdForm) : OpcodeStands.Statement (.accRead f) := opcode_stands rfl (opcOf_encodeStd ..) rfl
theorem OpcodeStands.accPeek (f : StdForm) : OpcodeStands.Statement (.accPeek f) := opcode_stands rfl (opcOf_encodeStd ..) rfl
theorem OpcodeStands.accWrite (f : StdForm) : OpcodeStands.Statement (.accWrite f) := opcode_stands rfl (opcOf_encodeStd ..) rfl
theorem OpcodeStands.accStore (f : StdForm) : OpcodeStands.Statement (.accStore f) := opcode_stands rfl (opcOf_encodeStd ..) rfl
theorem OpcodeStands.topup (f : XForm) : OpcodeStands.Statement (.topup f) := opcode_stands rfl (opcOf_encodeX ..) rfl
theorem OpcodeStands.tack (f : XForm) : OpcodeStands.Statement (.tack f) := opcode_stands rfl (opcOf_encodeX ..) rfl
theorem OpcodeStands.leave (f : XForm) : OpcodeStands.Statement (.leave f) := opcode_stands rfl (opcOf_encodeX ..) rfl
theorem OpcodeStands.meter (f : XForm) : OpcodeStands.Statement (.meter f) := opcode_stands rfl (opcOf_encodeX ..) rfl
theorem OpcodeStands.grant (f : XForm) : OpcodeStands.Statement (.grant f) := opcode_stands rfl (opcOf_encodeX ..) rfl
theorem OpcodeStands.resumev (f : XForm) : OpcodeStands.Statement (.resumev f) := opcode_stands rfl (opcOf_encodeX ..) rfl
theorem OpcodeStands.launch (f : XForm) : OpcodeStands.Statement (.launch f) := opcode_stands rfl (opcOf_encodeX ..) rfl
theorem OpcodeStands.nextw (f : XForm) : OpcodeStands.Statement (.nextw f) := opcode_stands rfl (opcOf_encodeX ..) rfl
theorem OpcodeStands.trap (f : XForm) : OpcodeStands.Statement (.trap f) := opcode_stands rfl (opcOf_encodeX ..) rfl
theorem OpcodeStands.srd (f : XForm) : OpcodeStands.Statement (.srd f) := opcode_stands rfl (opcOf_encodeX ..) rfl
theorem OpcodeStands.swr (f : XForm) : OpcodeStands.Statement (.swr f) := opcode_stands rfl (opcOf_encodeX ..) rfl
theorem OpcodeStands.time (f : XForm) : OpcodeStands.Statement (.time f) := opcode_stands rfl (opcOf_encodeX ..) rfl
theorem OpcodeStands.freeze (f : XForm) : OpcodeStands.Statement (.freeze f) := opcode_stands rfl (opcOf_encodeX ..) rfl
theorem OpcodeStands.thaw (f : XForm) : OpcodeStands.Statement (.thaw f) := opcode_stands rfl (opcOf_encodeX ..) rfl
theorem OpcodeStands.preempt (f : XForm) : OpcodeStands.Statement (.preempt f) := opcode_stands rfl (opcOf_encodeX ..) rfl
theorem OpcodeStands.copy (f : XForm) : OpcodeStands.Statement (.copy f) := opcode_stands rfl (opcOf_encodeX ..) rfl
theorem OpcodeStands.gather (f : XForm) : OpcodeStands.Statement (.gather f) := opcode_stands rfl (opcOf_encodeX ..) rfl
theorem OpcodeStands.scatter (f : XForm) : OpcodeStands.Statement (.scatter f) := opcode_stands rfl (opcOf_encodeX ..) rfl
theorem OpcodeStands.allreduce (f : XForm) : OpcodeStands.Statement (.allreduce f) := opcode_stands rfl (opcOf_encodeX ..) rfl
theorem OpcodeStands.allgather (f : XForm) : OpcodeStands.Statement (.allgather f) := opcode_stands rfl (opcOf_encodeX ..) rfl
theorem OpcodeStands.reducescatter (f : XForm) : OpcodeStands.Statement (.reducescatter f) := opcode_stands rfl (opcOf_encodeX ..) rfl
theorem OpcodeStands.broadcast (f : XForm) : OpcodeStands.Statement (.broadcast f) := opcode_stands rfl (opcOf_encodeX ..) rfl
theorem OpcodeStands.remwr (f : XForm) : OpcodeStands.Statement (.remwr f) := opcode_stands rfl (opcOf_encodeX ..) rfl
theorem OpcodeStands.rematom (f : XForm) : OpcodeStands.Statement (.rematom f) := opcode_stands rfl (opcOf_encodeX ..) rfl
theorem OpcodeStands.lwopen (f : XForm) : OpcodeStands.Statement (.lwopen f) := opcode_stands rfl (opcOf_encodeX ..) rfl
theorem OpcodeStands.lwclose (f : XForm) : OpcodeStands.Statement (.lwclose f) := opcode_stands rfl (opcOf_encodeX ..) rfl
theorem OpcodeStands.epopen (f : XForm) : OpcodeStands.Statement (.epopen f) := opcode_stands rfl (opcOf_encodeX ..) rfl
theorem OpcodeStands.epstep (f : XForm) : OpcodeStands.Statement (.epstep f) := opcode_stands rfl (opcOf_encodeX ..) rfl
theorem OpcodeStands.epend (f : XForm) : OpcodeStands.Statement (.epend f) := opcode_stands rfl (opcOf_encodeX ..) rfl
theorem OpcodeStands.rwsend (f : XForm) : OpcodeStands.Statement (.rwsend f) := opcode_stands rfl (opcOf_encodeX ..) rfl
theorem OpcodeStands.jcfg (f : XForm) : OpcodeStands.Statement (.jcfg f) := opcode_stands rfl (opcOf_encodeX ..) rfl
theorem OpcodeStands.lvset (f : XForm) : OpcodeStands.Statement (.lvset f) := opcode_stands rfl (opcOf_encodeX ..) rfl
theorem OpcodeStands.jstat (f : XForm) : OpcodeStands.Statement (.jstat f) := opcode_stands rfl (opcOf_encodeX ..) rfl
theorem OpcodeStands.tokenArrival (fl : Flight) : OpcodeStands.Statement (.tokenArrival fl) := event_stands rfl
theorem OpcodeStands.spillSearch (fl : Flight) : OpcodeStands.Statement (.spillSearch fl) := event_stands rfl
theorem OpcodeStands.heldTokenAccept (fl : Flight) : OpcodeStands.Statement (.heldTokenAccept fl) := event_stands rfl
theorem OpcodeStands.headerLatchFreed (fl : Flight) : OpcodeStands.Statement (.headerLatchFreed fl) := event_stands rfl
theorem OpcodeStands.tokenRoute (fl : Flight) : OpcodeStands.Statement (.tokenRoute fl) := event_stands rfl
theorem OpcodeStands.contextGrant (r : CtxRequest) : OpcodeStands.Statement (.contextGrant r) := event_stands rfl
theorem OpcodeStands.sweepStart (hoop : Nat) : OpcodeStands.Statement (.sweepStart hoop) := event_stands rfl
theorem OpcodeStands.sweepEnd (hoop : Nat) : OpcodeStands.Statement (.sweepEnd hoop) := event_stands rfl
theorem OpcodeStands.instanceCommit (task : Nat) (inst : InstKey) : OpcodeStands.Statement (.instanceCommit task inst) := event_stands rfl
theorem OpcodeStands.heldExitDelivery (task : Nat) (d : Delivery) : OpcodeStands.Statement (.heldExitDelivery task d) := event_stands rfl
theorem OpcodeStands.entryInjection (task : Nat) : OpcodeStands.Statement (.entryInjection task) := event_stands rfl
theorem OpcodeStands.loopiIssue (task id : Nat) : OpcodeStands.Statement (.loopiIssue task id) := event_stands rfl
theorem OpcodeStands.heldFaultRecheck (task op j : Nat) : OpcodeStands.Statement (.heldFaultRecheck task op j) := event_stands rfl
theorem OpcodeStands.loadOrderRelease (task op j : Nat) : OpcodeStands.Statement (.loadOrderRelease task op j) := event_stands rfl
theorem OpcodeStands.translationWalk (task op j : Nat) : OpcodeStands.Statement (.translationWalk task op j) := event_stands rfl
theorem OpcodeStands.readComplete (task op j : Nat) : OpcodeStands.Statement (.readComplete task op j) := event_stands rfl
theorem OpcodeStands.streamEngineAcquire (task op j : Nat) : OpcodeStands.Statement (.streamEngineAcquire task op j) := event_stands rfl
theorem OpcodeStands.circuitSetup (task op j : Nat) : OpcodeStands.Statement (.circuitSetup task op j) := event_stands rfl
theorem OpcodeStands.streamElementAccess (task sid : Nat) : OpcodeStands.Statement (.streamElementAccess task sid) := event_stands rfl
theorem OpcodeStands.streamDataArrival (fl : Flight) : OpcodeStands.Statement (.streamDataArrival fl) := event_stands rfl
theorem OpcodeStands.scoreboardWaitEnd (task op j : Nat) : OpcodeStands.Statement (.scoreboardWaitEnd task op j) := event_stands rfl
theorem OpcodeStands.atOnceRelease (task op j : Nat) : OpcodeStands.Statement (.atOnceRelease task op j) := event_stands rfl
theorem OpcodeStands.bankOperation (task op j : Nat) : OpcodeStands.Statement (.bankOperation task op j) := event_stands rfl
theorem OpcodeStands.bankReply (task op j : Nat) (r : BankReply) : OpcodeStands.Statement (.bankReply task op j r) := event_stands rfl
theorem OpcodeStands.atomscTokenVisit (bank : Nat) : OpcodeStands.Statement (.atomscTokenVisit bank) := event_stands rfl
theorem OpcodeStands.structRequest (task op j : Nat) : OpcodeStands.Statement (.structRequest task op j) := event_stands rfl
theorem OpcodeStands.structPoolWaitEnd (task op j : Nat) : OpcodeStands.Statement (.structPoolWaitEnd task op j) := event_stands rfl
theorem OpcodeStands.readerCancel (task id : Nat) : OpcodeStands.Statement (.readerCancel task id) := event_stands rfl
theorem OpcodeStands.lockRelease (task op j : Nat) : OpcodeStands.Statement (.lockRelease task op j) := event_stands rfl
theorem OpcodeStands.lockTileWaitEnd (task op j : Nat) : OpcodeStands.Statement (.lockTileWaitEnd task op j) := event_stands rfl
theorem OpcodeStands.queuePutServe (task op j : Nat) : OpcodeStands.Statement (.queuePutServe task op j) := event_stands rfl
theorem OpcodeStands.queueGetServe (task op j : Nat) : OpcodeStands.Statement (.queueGetServe task op j) := event_stands rfl
theorem OpcodeStands.queueWaitExpire (task op j : Nat) : OpcodeStands.Statement (.queueWaitExpire task op j) := event_stands rfl
theorem OpcodeStands.enginePortDepart (task op j : Nat) : OpcodeStands.Statement (.enginePortDepart task op j) := event_stands rfl
theorem OpcodeStands.engineCommandStart (tower engine : Nat) : OpcodeStands.Statement (.engineCommandStart tower engine) := event_stands rfl
theorem OpcodeStands.engineCommandComplete (task op j : Nat) : OpcodeStands.Statement (.engineCommandComplete task op j) := event_stands rfl
theorem OpcodeStands.rowLanding (row : Row) : OpcodeStands.Statement (.rowLanding row) := event_stands rfl
theorem OpcodeStands.landingAck (task op j : Nat) (node : BitVec 14) : OpcodeStands.Statement (.landingAck task op j node) := event_stands rfl
theorem OpcodeStands.failureAck (task op j : Nat) (node : BitVec 14) (reason : BitVec 8) : OpcodeStands.Statement (.failureAck task op j node reason) := event_stands rfl
theorem OpcodeStands.commitTokenReceive (sender : Sender) : OpcodeStands.Statement (.commitTokenReceive sender) := event_stands rfl
theorem OpcodeStands.abortTokenReceive (sender : Sender) : OpcodeStands.Statement (.abortTokenReceive sender) := event_stands rfl
theorem OpcodeStands.remoteAtomicReceive (m : RemoteAtomic) : OpcodeStands.Statement (.remoteAtomicReceive m) := event_stands rfl
theorem OpcodeStands.remoteAtomicReply (task op j : Nat) (value : Word) (flags : BitVec 5) : OpcodeStands.Statement (.remoteAtomicReply task op j value flags) := event_stands rfl
theorem OpcodeStands.collContribution (c : Contribution) : OpcodeStands.Statement (.collContribution c) := event_stands rfl
theorem OpcodeStands.hostQueueWaitEnd (chan : Nat) (token : HostWord) : OpcodeStands.Statement (.hostQueueWaitEnd chan token) := event_stands rfl
theorem OpcodeStands.launchDecrement (line : LaunchRef) : OpcodeStands.Statement (.launchDecrement line) := event_stands rfl
theorem OpcodeStands.readyNoticeWaitEnd (n : Notice) : OpcodeStands.Statement (.readyNoticeWaitEnd n) := event_stands rfl
theorem OpcodeStands.readinessCheck (n : Notice) : OpcodeStands.Statement (.readinessCheck n) := event_stands rfl
theorem OpcodeStands.schedulerScan (tower : Nat) : OpcodeStands.Statement (.schedulerScan tower) := event_stands rfl
theorem OpcodeStands.blockFetch (task : Nat) : OpcodeStands.Statement (.blockFetch task) := event_stands rfl
theorem OpcodeStands.launchResources (task : Nat) : OpcodeStands.Statement (.launchResources task) := event_stands rfl
theorem OpcodeStands.meterLevel (task : Nat) : OpcodeStands.Statement (.meterLevel task) := event_stands rfl
theorem OpcodeStands.fillComplete (task dom : Nat) : OpcodeStands.Statement (.fillComplete task dom) := event_stands rfl
theorem OpcodeStands.placementCheck (task : Nat) : OpcodeStands.Statement (.placementCheck task) := event_stands rfl
theorem OpcodeStands.taskCommit (task : Nat) : OpcodeStands.Statement (.taskCommit task) := event_stands rfl
theorem OpcodeStands.commitDrain (task : Nat) : OpcodeStands.Statement (.commitDrain task) := event_stands rfl
theorem OpcodeStands.commitTokenSend (task : Nat) : OpcodeStands.Statement (.commitTokenSend task) := event_stands rfl
theorem OpcodeStands.commitRelease (task : Nat) : OpcodeStands.Statement (.commitRelease task) := event_stands rfl
theorem OpcodeStands.taskAbort (task : Nat) : OpcodeStands.Statement (.taskAbort task) := event_stands rfl
theorem OpcodeStands.park (task : Nat) : OpcodeStands.Statement (.park task) := event_stands rfl
theorem OpcodeStands.faultQueueAppend (tower : Nat) (r : FaultRecord) : OpcodeStands.Statement (.faultQueueAppend tower r) := event_stands rfl
theorem OpcodeStands.preemptFreeze (task : Nat) (save : Bool) : OpcodeStands.Statement (.preemptFreeze task save) := event_stands rfl
theorem OpcodeStands.preemptSave (task : Nat) : OpcodeStands.Statement (.preemptSave task) := event_stands rfl
theorem OpcodeStands.restoreTask (task : Nat) : OpcodeStands.Statement (.restoreTask task) := event_stands rfl
theorem OpcodeStands.topupPoolServe (task op j : Nat) : OpcodeStands.Statement (.topupPoolServe task op j) := event_stands rfl
theorem OpcodeStands.topupApply (task op j granted : Nat) : OpcodeStands.Statement (.topupApply task op j granted) := event_stands rfl
theorem OpcodeStands.targetMoveComplete (hoop dom : Nat) : OpcodeStands.Statement (.targetMoveComplete hoop dom) := event_stands rfl
theorem OpcodeStands.leaveCeilingRaise (hoop dom : Nat) : OpcodeStands.Statement (.leaveCeilingRaise hoop dom) := event_stands rfl
theorem OpcodeStands.mmaComplete (task op j : Nat) : OpcodeStands.Statement (.mmaComplete task op j) := event_stands rfl
theorem OpcodeStands.oploadComplete (task op j : Nat) : OpcodeStands.Statement (.oploadComplete task op j) := event_stands rfl
theorem OpcodeStands.sparseCoordinate (fl : Flight) : OpcodeStands.Statement (.sparseCoordinate fl) := event_stands rfl
theorem OpcodeStands.rewardArrival (m : RewardMsg) : OpcodeStands.Statement (.rewardArrival m) := event_stands rfl
theorem OpcodeStands.episodeScan (tower entry : Nat) : OpcodeStands.Statement (.episodeScan tower entry) := event_stands rfl
theorem OpcodeStands.episodeRelease (tower entry : Nat) : OpcodeStands.Statement (.episodeRelease tower entry) := event_stands rfl
theorem OpcodeStands.tlbInvalidateDone : OpcodeStands.Statement .tlbInvalidateDone := event_stands rfl
theorem OpcodeStands.sensorSample : OpcodeStands.Statement .sensorSample := event_stands rfl
theorem OpcodeStands.controlPeriod : OpcodeStands.Statement .controlPeriod := event_stands rfl
theorem OpcodeStands.watchdogFire : OpcodeStands.Statement .watchdogFire := event_stands rfl
theorem OpcodeStands.feedWindow : OpcodeStands.Statement .feedWindow := event_stands rfl
theorem OpcodeStands.feedcapReached : OpcodeStands.Statement .feedcapReached := event_stands rfl
theorem OpcodeStands.pumpRailLow : OpcodeStands.Statement .pumpRailLow := event_stands rfl
theorem OpcodeStands.pumpRailRestore : OpcodeStands.Statement .pumpRailRestore := event_stands rfl
theorem OpcodeStands.packageTick : OpcodeStands.Statement .packageTick := event_stands rfl
theorem OpcodeStands.dramTrain : OpcodeStands.Statement .dramTrain := event_stands rfl
theorem OpcodeStands.hostToken (chan : Nat) (node : BitVec 14) (data : BitVec 64) : OpcodeStands.Statement (.hostToken chan node data) := event_stands rfl
theorem OpcodeStands.flitReceive (port : Nat) (good : Bool) : OpcodeStands.Statement (.flitReceive port good) := event_stands rfl
theorem OpcodeStands.flitRetry (port : Nat) : OpcodeStands.Statement (.flitRetry port) := event_stands rfl
theorem OpcodeStands.linkDown (port : Nat) : OpcodeStands.Statement (.linkDown port) := event_stands rfl
theorem OpcodeStands.linkRetrain (port : Nat) : OpcodeStands.Statement (.linkRetrain port) := event_stands rfl
theorem OpcodeStands.quiescenceTimeout (task : Nat) : OpcodeStands.Statement (.quiescenceTimeout task) := event_stands rfl
theorem OpcodeStands.agingStep (tower task : Nat) : OpcodeStands.Statement (.agingStep tower task) := event_stands rfl
theorem OpcodeStands.pumpFeed (hoop dom strokes : Nat) : OpcodeStands.Statement (.pumpFeed hoop dom strokes) := event_stands rfl
theorem OpcodeStands.floorStop (hoop dom : Nat) : OpcodeStands.Statement (.floorStop hoop dom) := event_stands rfl
theorem OpcodeStands.leaveCeilingFall (hoop dom : Nat) : OpcodeStands.Statement (.leaveCeilingFall hoop dom) := event_stands rfl
theorem OpcodeStands.leaveViolation (task : Nat) (master : Word) (committed drawn : Nat) : OpcodeStands.Statement (.leaveViolation task master committed drawn) := event_stands rfl
theorem OpcodeStands.episodeDeadline (tower entry : Nat) : OpcodeStands.Statement (.episodeDeadline tower entry) := event_stands rfl
theorem OpcodeStands.pkPoolWrite (w : RegWrite) : OpcodeStands.Statement (.pkPoolWrite w) := event_stands rfl
theorem OpcodeStands.qmTargetWrite (w : RegWrite) : OpcodeStands.Statement (.qmTargetWrite w) := event_stands rfl
theorem OpcodeStands.qmCtlWrite (w : RegWrite) : OpcodeStands.Statement (.qmCtlWrite w) := event_stands rfl
theorem OpcodeStands.hcQuietWrite (w : RegWrite) : OpcodeStands.Statement (.hcQuietWrite w) := event_stands rfl
theorem OpcodeStands.pkTlbinvWrite (w : RegWrite) : OpcodeStands.Statement (.pkTlbinvWrite w) := event_stands rfl
theorem OpcodeStands.pkCtlRun (w : RegWrite) : OpcodeStands.Statement (.pkCtlRun w) := event_stands rfl
theorem OpcodeStands.pkNodeWrite (w : RegWrite) : OpcodeStands.Statement (.pkNodeWrite w) := event_stands rfl
theorem OpcodeStands.jtCtlWrite (w : RegWrite) : OpcodeStands.Statement (.jtCtlWrite w) := event_stands rfl
theorem OpcodeStands.registerWrite (w : RegWrite) : OpcodeStands.Statement (.registerWrite w) := event_stands rfl
theorem OpcodeStands.dramRefresh (tower die : Nat) : OpcodeStands.Statement (.dramRefresh tower die) := event_stands rfl
theorem OpcodeStands.resetPackage (cause : BitVec 3) : OpcodeStands.Statement (.resetPackage cause) := event_stands rfl
theorem OpcodeStands.firmwareLoad (image : FirmwareImage) : OpcodeStands.Statement (.firmwareLoad image) := event_stands rfl
theorem OpcodeStands.attestationRequest (nonce : BitVec 256) : OpcodeStands.Statement (.attestationRequest nonce) := event_stands rfl
theorem OpcodeStands.keyInstall (index : BitVec 12) (authentic : Bool) : OpcodeStands.Statement (.keyInstall index authentic) := event_stands rfl
theorem OpcodeStands.systemAgentWrite (agent : BitVec 14) (pa : Nat) (bytes : List Byte) : OpcodeStands.Statement (.systemAgentWrite agent pa bytes) := event_stands rfl
theorem OpcodeStands.systemAgentRead (agent : BitVec 14) (pa n : Nat) : OpcodeStands.Statement (.systemAgentRead agent pa n) := event_stands rfl
theorem OpcodeStands.configScrub (hoop quad : Nat) (found : ScrubFinding) : OpcodeStands.Statement (.configScrub hoop quad found) := event_stands rfl
theorem OpcodeStands.preemptionWaitElapsed (tower : Nat) : OpcodeStands.Statement (.preemptionWaitElapsed tower) := event_stands rfl
theorem OpcodeStands.linkTrained (port : Nat) (peer : BitVec 14) : OpcodeStands.Statement (.linkTrained port peer) := event_stands rfl

end Sys2Proof.Laws
end

