-- ==== Sys2Proof/Tests/Slice0.lean ====
section
/-!
SUPPORT. Tests: words written out from the encoding tables of the manual decode to what they stand for; each word-local check
refuses an ill-formed instruction; a few results come from the manual's rules and worked numbers; and for every obligation with
hypotheses a small state meets them together.
-/

open Sys2Proof Sys2Proof.Machine

namespace Sys2Proof.Tests

set_option Elab.async false

/-! ### Decoding (R86 to R98) -/

/-- The standard-form opcodes (R94). -/
def stdOpcodes : List (BitVec 7 × (StdForm → Instr)) :=
  [(0b0000001, .add), (0b0000010, .sub), (0b0000011, .adds), (0b0000100, .subs), (0b0000101, .addus),
   (0b0000110, .subus), (0b0000111, .mul), (0b0001000, .mulh), (0b0001001, .mulhu), (0b0001010, .div),
   (0b0001011, .divu), (0b0001100, .rem), (0b0001101, .remu), (0b0001110, .and), (0b0001111, .or),
   (0b0010000, .xor), (0b0010001, .andn), (0b0010010, .shl), (0b0010011, .shr), (0b0010100, .sar),
   (0b0010101, .rol), (0b0010110, .clz), (0b0010111, .ctz), (0b0011000, .popc)] ++
  [(0b0011001, .brev), (0b0011010, .min), (0b0011011, .max), (0b0011100, .minu), (0b0011101, .maxu),
   (0b0011110, .abs), (0b0011111, .neg), (0b0100000, .sel), (0b0100001, .extb), (0b0100010, .exth),
   (0b0100011, .bfx), (0b0100100, .bfi), (0b0100101, .teq), (0b0100110, .tne), (0b0100111, .tlt),
   (0b0101000, .tle), (0b0101001, .tltu), (0b0101010, .tleu), (0b0101011, .muladd), (0b0110000, .fadd),
   (0b0110001, .fsub), (0b0110010, .fmul), (0b0110011, .ffma), (0b0110100, .ffms)] ++
  [(0b0110101, .fmin), (0b0110110, .fmax), (0b0110111, .fabs), (0b0111000, .fneg), (0b0111001, .feq),
   (0b0111010, .flt), (0b0111011, .fle), (0b0111100, .funo), (0b0111101, .fclass), (0b0111110, .frnd),
   (0b0111111, .fdiv), (0b1000000, .fsqrt), (0b1000001, .frcp), (0b1000010, .frsq), (0b1000011, .fexp2),
   (0b1000100, .flog2), (0b1001000, .mov), (0b1001001, .nullTok), (0b1001010, .steer), (0b1001011, .merge),
   (0b1001111, .loopi), (0b1010000, .brk), (0b1010001, .call), (0b1010010, .ret)] ++
  [(0b1010011, .iterv), (0b1010100, .ctxv), (0b1010101, .workid), (0b1010110, .pmark), (0b1010111, .comb),
   (0b1011000, .eos), (0b1011001, .barr), (0b1011010, .bwait), (0b1011011, .fence), (0b1011100, .split),
   (0b1011101, .join), (0b1011110, .hdrt), (0b1110000, .cvt), (0b1110001, .padd2), (0b1110010, .pmul2),
   (0b1110011, .pfma2), (0b1110100, .dot2), (0b1110101, .dot4), (0b1110110, .reord), (0b1110111, .qsend)]

/-- The words of the standard form (R86): INC on t, b a literal, predicated, t0 5, t1 7. -/
theorem test_decode_standard : (stdOpcodes.map fun x => (decode (x.1 ++ 0b0001_0_1_1_000000101_000000111#25) 9).toOption) =
    stdOpcodes.map fun x => some (x.2 ⟨.inc, false, true, true, 5, 7, 9⟩) := by decide +kernel

/-- The opcodes whose literal's FORM selects the instruction (R92). -/
def formOpcodes : List (BitVec 7 × Word × (StdForm → Instr)) :=
  [(0b1111000, 0, .oslotClaim), (0b1111000, 1, .oslotRelease), (0b1111001, 0x200, .oploadDense), (0b1111001, 0x201, .oploadSparse),
   (0b1111001, 0x1002, .oploadCodebook), (0b1111010, 0x71, .mma), (0b1111011, 0x10, .accZero), (0b1111011, 0x21, .accRead),
   (0b1111011, 0x32, .accPeek), (0b1111011, 0x343, .accWrite), (0b1111011, 0x354, .accStore)]

theorem test_decode_form : (formOpcodes.map fun x => (decode (x.1 ++ 0b0011_1_0_0_111111111_000000010#25) x.2.1).toOption) =
    formOpcodes.map fun x => some (x.2.2 ⟨.zero, true, false, false, 0x1FF, 2, x.2.1⟩) := by decide +kernel

/-- The S-form words (R88, R96, R97): opcode and mod. -/
def segOpcodes : List (BitVec 7 × BitVec 4 × (SForm → Instr)) :=
  [(0b1100000, 0b0010, fun f => .ld f .byte true), (0b1100000, 0b0100, fun f => .ld f .half false), (0b1100000, 0b1000, fun f => .ld f .word false),
   (0b1100001, 0b0000, fun f => .st f .byte), (0b1100001, 0b1000, fun f => .st f .word), (0b1100010, 0b0011, fun f => .ldv f 3),
   (0b1100011, 0b0101, fun f => .stv f 5), (0b1100100, 0b0001, fun f => .sopenRead f 1), (0b1100100, 0b1001, fun f => .sopenWrite f 1),
   (0b1100101, 0b0010, fun f => .sindRead f 2), (0b1100101, 0b1010, fun f => .sindWrite f 2), (0b1100110, 0b0000, .sclose),
   (0b1100111, 0b0000, .sbar), (0b1101000, 0b0000, .iread), (0b1101001, 0b0000, .iwrite), (0b1101010, 0b0000, .iclear)] ++
  [(0b1101011, 0b0000, .aadd), (0b1101011, 0b0001, .afadd), (0b1101011, 0b0010, .amin), (0b1101011, 0b0011, .amax), (0b1101011, 0b0100, .aminu),
   (0b1101011, 0b0101, .amaxu), (0b1101011, 0b0110, .aand), (0b1101011, 0b0111, .aor), (0b1101011, 0b1000, .axor), (0b1101011, 0b1001, .aswap),
   (0b1101011, 0b1010, .acas), (0b1101011, 0b1011, .afmin), (0b1101011, 0b1100, .afmax), (0b1101100, 0b0000, fun f => .atomsc f .aadd),
   (0b1101100, 0b1010, fun f => .atomsc f .acas), (0b1101101, 0b0000, .lock), (0b1101110, 0b0000, .unlock), (0b1101111, 0b0000, .qput),
   (0b1101111, 0b0001, .qget)]

theorem test_decode_segment : (segOpcodes.map fun x => (decode (x.1 ++ 0b1001_1_0_1_000100001_11010#21 ++ x.2.1) 0x40).toOption) =
    segOpcodes.map fun x => some (x.2.2 ⟨9, true, false, true, 0x21, 26, 0x40⟩) := by decide +kernel

/-- The X-form words (R91, R98): opcode and sub. -/
def extOpcodes : List (BitVec 7 × BitVec 6 × (XForm → Instr)) :=
  [(0b1111100, 0, .topup), (0b1111100, 1, .tack), (0b1111100, 2, .leave), (0b1111100, 3, .meter), (0b1111100, 4, .grant), (0b1111100, 5, .resumev),
   (0b1111100, 6, .launch), (0b1111100, 7, .nextw), (0b1111100, 8, .trap), (0b1111100, 9, .srd), (0b1111100, 10, .swr), (0b1111100, 11, .time),
   (0b1111100, 12, .freeze), (0b1111100, 13, .thaw), (0b1111100, 14, .preempt)] ++
  [(0b1111101, 0, .copy), (0b1111101, 1, .gather), (0b1111101, 2, .scatter), (0b1111101, 4, .remwr), (0b1111101, 5, .rematom),
   (0b1111101, 6, .lwopen), (0b1111101, 7, .lwclose), (0b1111110, 0, .epopen), (0b1111110, 1, .epstep), (0b1111110, 2, .epend),
   (0b1111110, 3, .rwsend), (0b1111110, 4, .jcfg), (0b1111110, 5, .lvset), (0b1111110, 6, .jstat)]

theorem test_decode_extended : (extOpcodes.map fun x => (decode (x.1 ++ x.2.1 ++ 0b1_000000011_111111111#19) 0x30).toOption) =
    extOpcodes.map fun x => some (x.2.2 ⟨true, 3, 0x1FF, 0x30⟩) := by decide +kernel

/-- The collectives, by their FORM (R92), and the READ, WRITE and EXIT forms (R89, R90). -/
theorem test_decode_others :
    ([0, 1, 2, 3].map fun n => decode 0b1111101_000011_1_000000011_000000100#32 n) =
      [.ok (.allreduce ⟨true, 3, 4, 0⟩), .ok (.allgather ⟨true, 3, 4, 1⟩), .ok (.reducescatter ⟨true, 3, 4, 2⟩), .ok (.broadcast ⟨true, 3, 4, 3⟩)] ∧
    decode 0b1001101_11111_00_000000001_000000010#32 0 = .ok (.read ⟨31, 1, 2⟩) ∧
    decode 0b1001110_00001_00_111111111_000000010#32 0 = .ok (.write ⟨1, 0x1FF, 2⟩) ∧
    decode 0b1001100_0000_101_000000000000000000#32 0 = .ok (.exit 5) := by
  and_intros <;> rfl

/-- What the tables do not assign is refused by name (R92, R95 to R98). -/
theorem test_decode_refuses :
    decode 0b0101100_0000_0_0_0_000000101_000000111#32 0 = .error .opcode ∧ decode 0b1111111_0000_0_0_0_000000101_000000111#32 0 = .error .opcode ∧
    decode 0b1111000_0000_1_0_0_000000101_000000111#32 2 = .error .value ∧ decode 0b1111100_001111_0_000000101_000000111#32 0 = .error .value ∧
    decode 0b1101011_0000_0_0_0_000000001_00000_1101#32 0 = .error .value ∧ decode 0b1100010_0000_0_0_0_000000001_00000_0110#32 0 = .error .value ∧
    decode 0b1111000_0000_0_0_0_000000101_000000111#32 0 = .error .noControlLiteral ∧
    decode 0b1001100_0001_101_000000000000000000#32 0 = .error .reserved := by
  and_intros <;> rfl

/-- A decoded instruction encodes to its word, with its literal after it (R86). -/
theorem test_encode_literal : encode (.add ⟨.inc, false, true, true, 5, 7, 9⟩) = [0x022C0A07, 9] ∧
    decodeWords [0x022C0A07, 9] = .ok (.add ⟨.inc, false, true, true, 5, 7, 9⟩) := by
  and_intros <;> rfl

/-! ### The word-local checks (R108) -/

/-- One ill-formed instruction for each check, which the check refuses. -/
theorem test_checks_refuse :
    Instr.modOk (.ldv ⟨0, false, false, false, 1, 0, 0⟩ 6) = false ∧
    Instr.literalStands (.add ⟨.keep, false, false, false, 1, 2, 7⟩) = false ∧
    Instr.check5 (.split ⟨.keep, false, true, false, 1, 2, 6⟩) = false ∧
    Instr.check6 (.sclose ⟨3, false, true, false, 1, 0, 0⟩) = false ∧
    Instr.check7 (.nullTok ⟨.keep, true, false, false, 1, 2, 0⟩) = false ∧
    Instr.check8 (.topup ⟨false, 1, 2, 0⟩) = false := by decide +kernel

theorem test_ill_formed : ¬WellFormed (.ldv ⟨0, false, false, false, 1, 0, 0⟩ 6) ∧ ¬WellFormed (.add ⟨.keep, false, false, false, 1, 2, 7⟩) ∧
    ¬WellFormed (.split ⟨.keep, false, true, false, 1, 2, 6⟩) ∧ ¬WellFormed (.sclose ⟨3, false, true, false, 1, 0, 0⟩) ∧
    ¬WellFormed (.nullTok ⟨.keep, true, false, false, 1, 2, 0⟩) ∧ ¬WellFormed (.topup ⟨false, 1, 2, 0⟩) ∧
    WellFormed (.split ⟨.keep, false, true, false, 1, 2, 5⟩) ∧ WellFormed (.topup ⟨false, 1, 0x1FF, 0⟩) := by decide +kernel

/-! ### A small machine -/

/-- A tag of zeros, a set of one word of task 1 at a site, its operand tokens, and a task with one placed word, one context and the base
instance of its window. -/
def tag0 : Tag := ⟨0, 0, 0, 0, 0, 0, 0, 0, none⟩
def tok (fmt : BitVec 3) (ws : List Word) : Token := ⟨{ tag0 with fmt := fmt }, ws⟩
def setAt (site : Site) (a b c : Option Token) : Firing := ⟨1, site, tag0, 1, a, b, c, none, 0, [], 1, site, [], none⟩
def task1 : Task := fetchTask 1 0 (.tile 0)

/-- The state in which a set of a task is being fired, and the state in which the task's events come up. -/
def atSet (g : Firing) (t : Task) : State := { State.reset with cur := some (.firing g, 0), tasks := [t], nextTask := 2, time := 5 }
def withTasks (ts : List Task) : State := { State.reset with tasks := ts, nextTask := 9, time := 5 }

/-- Forms: a target each, no literal. -/
def std : StdForm := ⟨.keep, false, false, false, 3, 4, 0⟩
def seg (n : BitVec 4) : SForm := ⟨n, false, false, false, 3, 2, 0⟩
def ext : XForm := ⟨false, 3, 4, 0⟩

/-- Page tables of address space 0 in DRAM: its first 32 MiB are the shared memory of tower 0, one large page under key 0. -/
def tables : Memory := [(0, 0x21), (0x10000, 0x41), (0x20000, 0x61), (0x30000, 0x0F), (0x30003, 0x08)]
def page0 : BitVec 64 := 0x800000F
def shm : Nat := 0x4000000000

/-- Segment n has type n, and the page is in the cache of hoop 0. -/
def segs1 : List Segment := ⟨0, 0, 0, false, false, 0⟩ :: ([1, 2, 3, 4, 5, 6].map fun n => ⟨0, 0xFFFFF, 0, true, true, n⟩) ++
  List.replicate 9 ⟨0, 0, 0, false, false, 0⟩
def taskM : Task := { task1 with tcb := { task1.tcb with segs := segs1 } }
def cached (s : State) : State :=
  { s with mem := tables, hoops := s.hoops.set 0 { Hoop.reset with tlb := [⟨none, 0, 0, page0, true⟩] } }
def setM (a b : Word) : Firing := setAt (.tile 0) (some (tok 0 [a])) (some (tok 0 [b])) (some (tok 0 [1]))

/-- An operation of task 1 of one word at a stage, taken by a set, and the task with it. -/
def word1 (st : OpStage) : OpWord := ⟨st, 0, [], [], 0, [], 0, false, 0⟩
def opOf (i : Instr) (g : Firing) (w : OpWord) : OpRec := ⟨1, g, i, [w]⟩
def withOp (t : Task) (o : OpRec) : Task := { t with ops := [o], nextOp := 2 }

/-! ### A state for the hypotheses of every obligation -/

/-- Sets of one word on two or three data words. -/
def set2 : Firing := setAt (.elem 0 0) (some (tok 0 [7])) (some (tok 0 [9])) none
def set3 : Firing := setAt (.elem 0 0) (some (tok 0 [7])) (some (tok 0 [9])) (some (tok 0 [1]))
def setF : Firing := setAt (.elem 0 0) (some (tok 1 [0x3F800000])) (some (tok 1 [0x40000000])) (some (tok 1 [0x7FC00001]))

/-- A set of three words, its first fired, under a choice. -/
def setHalf : Firing := { setAt (.elem 0 0) (some (tok 0 [7, 8, 9])) (some (tok 0 [1, 2, 3])) none with n := 3, fired := [.data 0 8] }
def stateHalf : State := { atSet setHalf task1 with choices := [1] }

theorem witness_IntegerResults : (∃ r, Claims.integerRule (.add std) = some r) ∧ Claims.Fires (atSet set2 task1) set2 task1 ∧
    Claims.Fires stateHalf setHalf task1 := ⟨⟨_, rfl⟩, ⟨rfl, rfl, rfl⟩, rfl, rfl, rfl⟩

/-- One word of the two left fires, and the set keeps its place. -/
theorem test_half_fired : (match exec (.add std) stateHalf with
    | .next s => s.agenda == [.firing { setHalf with fired := [.data 0 8, .data 0 10] }]
    | _ => false) = true := by decide +kernel

theorem witness_FloatResults : ∃ r, Claims.floatRule (.ffma std) = some (1, r) ∧ Claims.Fires (atSet setF task1) setF task1 :=
  ⟨_, rfl, rfl, rfl, rfl⟩

/-- The block of task 1, its tile 0 left a window whose base is iteration 0; and the same with a write mask. -/
def ctx1 : Context := ⟨0, 0, none, 0, none, [⟨3, 0x11, 1⟩], 0x0123456789ABCDEF, true⟩
def taskR : Task := { task1 with contexts := [ctx1], tcb := { task1.tcb with widths := [8, 16, 40] } }
/-- The same at iteration 1, with the write mask naming the frame word and instance 0 standing. -/
def taskW : Task := { taskR with
  blocks := task1.blocks.map fun b => { b with writeMask := 8 }
  insts := task1.insts ++ [⟨⟨0, 0, 1⟩, 2, 0, 0, false, none, [], 0, [], 0, 0⟩] }
def set2' : Firing := { set2 with tag := { tag0 with iter := 1 } }

theorem witness_WordsForwarded : Claims.Fires (atSet set2 taskR) set2 taskR ∧ taskR.context? set2.tag.ctx = some ctx1 ∧
    controlToken set2.a = none ∧ Claims.readWaits (.read ⟨3, 1, 2⟩) (atSet set2 taskR) set2 taskR = false ∧
    (∀ i ∈ [Instr.mov std, .nullTok std, .iterv std, .ctxv std, .workid { std with lit := 2 }, .read ⟨3, 1, 2⟩],
      (Claims.forwardRule i set2 taskR ctx1).isSome) ∧
    (atSet set2' taskW).cur = some (.firing set2', 0) ∧ Claims.readWaits (.read ⟨3, 1, 2⟩) (atSet set2' taskW) set2' taskW = true := by
  and_intros <;> first | rfl | decide +kernel

/-- Control tokens: EOS on A. -/
def setEos : Firing := setAt (.elem 0 0) (some (tok 7 [2])) none none
def setB : Firing := setAt (.elem 0 0) none (some (tok 0 [9])) none
def setSteer : Firing := setAt (.elem 0 0) (some (tok 0 [7])) none (some (tok 0 [1]))

theorem witness_TokensRouted : Claims.Fires (atSet set2 task1) set2 task1 ∧ set2.a.isSome ∧ controlToken set2.a = none ∧
    Claims.Fires (atSet setB task1) setB task1 ∧ setB.a = none ∧ controlToken setB.b = none ∧
    Claims.Fires (atSet setEos task1) setEos task1 ∧ controlToken setEos.a = some (tok 7 [2]) ∧ setEos.c = none ∧
    anyNull (.mov std) setEos 0 = false ∧ predicateFalse (.mov std) setEos 0 = false ∧
    anyNull (.merge std) setEos 0 = false ∧ predicateFalse (.merge std) setEos 0 = false ∧
    Claims.Fires (atSet setSteer task1) setSteer task1 ∧ controlToken setSteer.a = none ∧ setSteer.b = none ∧ setSteer.p = none := by
  and_intros <;> first | rfl | decide +kernel

def setNull : Firing := setAt (.elem 0 0) (some (tok 7 [1])) none none

theorem witness_WriteStagesFrameWord : Claims.Fires (atSet set2 task1) set2 task1 ∧ Claims.CountsFirst set2 task1 (.fw 3) ∧
    tokenOut set2.a 0 = .data 0 7 ∧
    Claims.Fires (atSet setNull task1) setNull task1 ∧ Claims.CountsFirst setNull task1 (.fw 31) ∧ tokenOut setNull.a 0 = .null :=
  ⟨⟨rfl, rfl, rfl⟩, ⟨rfl, _, rfl, rfl⟩, rfl, ⟨rfl, rfl, rfl⟩, ⟨rfl, _, rfl, rfl⟩, rfl⟩

/-- A live issue of three iterations, one of them issued. -/
def issue1 : LoopIssue := ⟨4, { set2 with tag := tag0 }, .loopi std, 3, 9, 1, false⟩
def taskL : Task := { task1 with
  loops := [issue1]
  windows := [⟨0, 0, 0, 4⟩]
  insts := (List.range 4).map fun k => ⟨⟨0, 0, BitVec.ofNat 12 k⟩, k, 0, 0, false, none, [], 0, [], 0, 0⟩ }
def setL : Firing := { set2 with tag := { tag0 with iter := 2 } }
/-- A count word beyond the issue, and one that came alone. -/
def setLater : Firing := { set2 with tag := { tag0 with iter := 3 } }
def setAlone : Firing := { set2 with b := none }

theorem witness_LoopiIssues : Claims.Fires (atSet set2 task1) set2 task1 ∧ set2.b ≠ none ∧ std.pr = false ∧
    anyNull (.loopi std) set2 0 = false ∧ task1.loops = [] ∧
    Claims.Fires (atSet setL taskL) setL taskL ∧ (setL.tag.iter - issue1.firing.tag.iter).toNat < issue1.trip ∧
    Claims.Fires (atSet setAlone task1) setAlone task1 ∧ std.lb = false ∧ setAlone.b = none ∧
    Claims.Fires (atSet setLater taskL) setLater taskL ∧ issue1.trip ≤ (setLater.tag.iter - issue1.firing.tag.iter).toNat ∧
    (withTasks [taskL]).task? 1 = some taskL ∧ taskL.schedule = false ∧ taskL.phase = .running ∧ taskL.frozen = .none ∧
    taskL.loops.find? (fun x => x.id == issue1.id) = some issue1 ∧
    (withTasks [taskL]).admittedPrefix taskL { issue1.firing with tag := { tag0 with iter := 1 } } 0 (Nat.min 32 (3 - 1)) = 2 ∧
    (withTasks [taskL]).outputQueue 1 issue1.firing.site < 4 := by
  and_intros <;> first | rfl | decide +kernel

/-- A block whose exit 0 continues, whose exit 1 leaves to block 2, and a context that a CALL made. -/
def taskE : Task := { task1 with blocks := task1.blocks.map fun b => { b with exits := [⟨.inc, some 0, true⟩, ⟨.keep, some 2, false⟩, ⟨.keep, none, false⟩] } }
def taskC : Task := { task1 with contexts := [{ ctx1 with route := some ⟨tag0, 3, 4⟩ }] }

theorem witness_ExitAndBreak : Claims.Fires (atSet set2 taskE) set2 taskE ∧ Claims.CountsFirst set2 taskE .exit ∧ tokenOut set2.a 0 = .data 0 7 ∧
    (taskE.block? set2.tag.blk).bind (fun b => b.exits[0]?) = some ⟨.inc, some 0, true⟩ ∧
    (taskE.block? set2.tag.blk).bind (fun b => b.exits[2]?) = some ⟨.keep, none, false⟩ ∧
    Claims.Fires (atSet setNull taskE) setNull taskE ∧ Claims.CountsFirst setNull taskE .exit ∧ tokenOut setNull.a 0 = .null ∧
    Claims.Fires (atSet set2 task1) set2 task1 ∧ performs (.brk std) set2 0 = true :=
  ⟨⟨rfl, rfl, rfl⟩, ⟨rfl, _, rfl, rfl⟩, rfl, rfl, rfl, ⟨rfl, rfl, rfl⟩, ⟨rfl, _, rfl, rfl⟩, rfl, ⟨rfl, rfl, rfl⟩, rfl⟩

theorem witness_CallAndReturn : Claims.Fires (atSet set2 task1) set2 task1 ∧ performs (.call std) set2 0 = true ∧
    operand (.call std) set2 0 0 = .data 0 7 ∧ task1.placed? set2.tag.blk set2.tag.inst = some ⟨0, 0, .tile 0, 0⟩ ∧
    performs (.ret std) set2 0 = true ∧ (∃ c, task1.context? 0 = some c ∧ c.route = none) ∧
    Claims.Fires (atSet set2 taskC) set2 taskC ∧ (∃ c, taskC.context? 0 = some c ∧ c.route.isSome) ∧ Claims.CountsFirst set2 taskC .exit :=
  ⟨⟨rfl, rfl, rfl⟩, rfl, rfl, rfl, rfl, ⟨_, rfl, rfl⟩, ⟨rfl, rfl, rfl⟩, ⟨_, rfl, rfl⟩, rfl, _, rfl, rfl⟩

/-- An accumulation of ADD (R214), of which one word has come; and a state whose run counter is past it. -/
def accum1 : Accum := ⟨.elem 0 0, tag0, 0, some ⟨0, 0, 5⟩, 1, 0, none⟩
def taskA : Task := { task1 with accums := [accum1] }
def setOne : Firing := setAt (.elem 0 0) (some (tok 0 [7])) none none
def comb2 : StdForm := { std with lb := true, lit := 0x100 }
def comb3 : StdForm := { std with lb := true, lit := 0x200 }

theorem witness_CombAccumulates : Claims.Fires (atSet setOne task1) setOne task1 ∧ (tok 0 [7]).tag.fmt = combFmt (combOp comb2.lit) ∧
    task1.accums.find? (sameAccum setOne 0) = none ∧ combCount comb2.lit ≠ 1 ∧
    ({ task1 with quiet := 0, accums := [(⟨.elem 0 0, tag0, 0, some ⟨0, 0, 7⟩, 1, 0, none⟩ : Accum)] } : Task).openTo
      ((atSet setOne task1).setsOf 1) (.elem 0 0) 0 0 0 = true ∧
    Claims.Fires { atSet setOne taskA with fresh := 1 } setOne taskA ∧ (∀ a ∈ taskA.accums, a.slot = none ∧ a.run < 1) ∧
    accum1.count + 1 ≠ combCount comb3.lit ∧
    taskA.accums.find? (sameAccum setOne 0) = some accum1 ∧ accum1.count + 1 = combCount comb2.lit := by
  and_intros <;> first | rfl | decide +kernel

/-- Packed tokens of BF16, an F32 addend with packed words, a token of another format, and a scaled header. -/
def setP : Firing := setAt (.elem 0 0) (some (tok 2 [0x3F803F80])) (some (tok 2 [0x40004000])) (some (tok 2 [0x3F803F80]))
def setD : Firing := setAt (.elem 0 0) (some (tok 1 [0x3F800000])) (some (tok 3 [0x3C003C00])) (some (tok 3 [0x40004000]))
def setX : Firing := setAt (.elem 0 0) (some (tok 0 [7])) (some (tok 1 [9])) (some (tok 0 [1]))

theorem witness_PackedAndSelected : Claims.Fires (atSet setP task1) setP task1 ∧ (∃ x, Claims.packedRule 2 (.pfma2 std) = some x) ∧
    packedTokens (.pfma2 std) setP [0, 1, 2] ≠ [] ∧ (∀ k ∈ packedTokens (.pfma2 std) setP [0, 1, 2], k.tag.fmt = 2) ∧
    Claims.Fires (atSet setD task1) setD task1 ∧ packedTokens (.dot2 std) setD [1, 2] ≠ [] ∧ (∀ k ∈ packedTokens (.dot2 std) setD [1, 2], k.tag.fmt = 3) ∧
    Claims.Fires (atSet set3 task1) set3 task1 ∧ Claims.SelFormat std set3 0 ∧ Claims.Fires (atSet setX task1) setX task1 ∧
    (tok 0 [7]).tag.fmt ≠ 7 ∧ (tok 1 [9]).tag.fmt ≠ 7 ∧ (tok 0 [7]).tag.fmt ≠ (tok 1 [9]).tag.fmt :=
  ⟨⟨rfl, rfl, rfl⟩, ⟨_, rfl⟩, by decide +kernel, by decide +kernel, ⟨rfl, rfl, rfl⟩, by decide +kernel, by decide +kernel, ⟨rfl, rfl, rfl⟩,
    ⟨fun k h _ => .inl (by cases h; rfl), fun k h _ => .inl (by cases h; rfl), .inl ⟨_, rfl, rfl, rfl⟩⟩, ⟨rfl, rfl, rfl⟩,
    by decide, by decide, by decide⟩

def cvtF : StdForm := { std with lb := true, lit := 0x010 }
def setF1 : Firing := setAt (.elem 0 0) (some (tok 1 [0xBFC00000])) none none

theorem witness_Conversions : Claims.Fires (atSet setF1 task1) setF1 task1 ∧ cvtLitOk cvtF.lit = true ∧
    (setF1.a.bind fun k => k.tag.rdir) = none ∧ cvtSfmt cvtF.lit = 1 ∧ cvtDfmt cvtF.lit = 0 ∧
    f32 0x7FC00000 = .nan false ∧ f32 0xFF800000 = .inf true ∧ f32 0xBFC00000 = .fin true 12582912 (-23) ∧
    roundAt (modeOf (cvtForm cvtF.lit)) true 12582912 (-23) 0 = (2, true) := by
  and_intros <;> first | with_reducible rfl | decide +kernel | rfl

/-- Windows of two and of four words, with a set of three words across a boundary, and an EOS that finds one word held. -/
def win (n : Nat) : List Gathered := (List.range n).map fun k => ⟨k, 1, 0x3F800000⟩
def setJ (n : Nat) : Firing := { setAt (.elem 0 0) (some (tok 1 [0x3F800000])) none none with win := win n }
def setS : Firing := { setAt (.elem 0 0) (some (tok 0 [1, 2, 3])) none none with n := 3, tag := { tag0 with iter := 1 } }
def taskS : Task := { task1 with insts := [1, 2, 3].map fun k => ⟨⟨0, 0, k⟩, k.toNat, 0, 0, false, none, [], 0, [], 0, 0⟩ }
def setEosH : Firing := { setEos with flush := some 5 }
def taskH : Task := { task1 with waiting := [⟨.elem 0 0, tok 0 [7], 0, true, none, .elem 0 1, some 5⟩] }
def lit1 : StdForm := { std with lb := true, lit := 1 }
def lit11 : StdForm := { std with lb := true, lit := 0x9 }

theorem witness_WindowsGatherAndSplit : Claims.Fires (atSet setS taskS) setS taskS ∧ controlToken setS.a = none ∧
    Claims.Fires (atSet (setJ 2) task1) (setJ 2) task1 ∧ controlToken (setJ 2).a = none ∧ (∀ k < 2 ^ litL lit1.lit, Claims.received (win 2) k ≠ .none) ∧
    Claims.Fires (atSet (setJ 4) task1) (setJ 4) task1 ∧
    (∀ k < 2 ^ litLP lit11.lit * 2 ^ litLQ lit11.lit, Claims.received (win 4) k ≠ .none) ∧
    Claims.Fires (atSet setEosH taskH) setEosH taskH ∧ controlToken setEosH.a = some (tok 7 [2]) ∧ taskH.heldWindows setEosH 2 ≠ [] := by
  and_intros <;> first | rfl | decide +kernel

/-- A block of one word of eight C4 codes, and one with a NULL word. -/
def qsF : StdForm := { std with lb := true, lit := 0x004 }
def qsI : StdForm := { std with lb := true, lit := 0x005 }
def setQN : Firing := { setJ 4 with win := ⟨0, 7, 1⟩ :: (win 4).drop 1 }

theorem witness_QsendQuantisesBlock : Claims.Fires (atSet (setJ 8) task1) (setJ 8) task1 ∧ controlToken (setJ 8).a = none ∧ qsendEfmt qsF.lit = 4 ∧
    (∀ k < 8 * 2 ^ qsendLw qsF.lit, Claims.received (win 8) k ≠ .none) ∧ 8 * 2 ^ qsendLw qsF.lit < 64 ∧
    Claims.Fires (atSet setQN task1) setQN task1 ∧ qsendEfmt qsI.lit = 5 ∧ (∀ k < 4 * 2 ^ qsendLw qsI.lit, Claims.received setQN.win k ≠ .none) := by
  and_intros <;> first | rfl | decide +kernel

/-! Accesses -/

def setM' : Firing := setM 8 9
def stateM : State := cached (atSet setM' taskM)
def beganM (i : Instr) : State := Claims.began i stateM setM' taskM
/-- An opener whose descriptor lies at 64. -/
def setO : Firing := setM 8 64
def stateO : State := cached (atSet setO taskM)
def beganO : State := (Claims.began (.sopenWrite (seg 1) 0) stateO setO taskM).count 1 (.tile 0) tag0 (setO.instAt 0) (.lsid 2)

theorem witness_RequestsIssue :
    Claims.Begins (.ld (seg 3) .word false) stateM setM' taskM (beganM (.ld (seg 3) .word false)) ∧
    Claims.Passes (.ld (seg 3) .word false) (beganM (.ld (seg 3) .word false)) setM' taskM 0 (scratchBase 0 + 8) 0 ∧
    Claims.Begins (.acas (seg 2)) stateM setM' taskM (beganM (.acas (seg 2))) ∧ Claims.Passes (.acas (seg 2)) (beganM (.acas (seg 2))) setM' taskM 0 (shm + 8) 0 ∧
    Claims.Begins (.iread (seg 4)) stateM setM' taskM (beganM (.iread (seg 4))) ∧ Claims.Passes (.iread (seg 4)) (beganM (.iread (seg 4))) setM' taskM 0 (shm + 8) 0 ∧
    (Claims.afterChecks (.iread (seg 4)) 1 1 0).isSome ∧ (Claims.afterChecks (.acas (seg 2)) 1 1 0).isSome ∧
    Claims.Opens stateO setO taskM ∧ performs (.sopenWrite (seg 1) 0) setO 0 = true ∧
    (taskM.inst? (setO.instAt 0)).map (fun x => x.has (.lsid 2)) = some false ∧ beganO.orderReady taskM (setO.instAt 0) 2 true = true ∧
    Claims.Passes (.sopenWrite (seg 1) 0) beganO setO taskM 0 (shm + 64) 0 ∧
    Claims.Begins (.unlock (seg 0)) stateM setM' taskM (beganM (.unlock (seg 0))) := by
  simp only [Claims.Begins, Claims.Opens, Claims.Fires, Claims.Passes, beganM]
  and_intros <;> first | with_reducible rfl | decide +kernel | nofun

theorem witness_SameFormat : Claims.SameFormat (.acas (seg 2)) setM' := fun c h => .inr (by cases h; exact .inr rfl)

/-- Windows of one word at an entry size of one word: a word, and a NULL word. -/
def setQ : Firing := { setM 8 9 with win := win 1 }
def setQ0 : Firing := { setM 8 9 with win := [⟨0, 7, 1⟩] }
def stateQ : State := cached (atSet setQ taskM)
def beganQ : State := Claims.began (.qput (seg 2)) stateQ setQ taskM

theorem witness_QputTakesWindow :
    Claims.Opens stateQ setQ taskM ∧ ((List.range 1).any (fun j => (operand (.qput (seg 2)) setQ 0 j).isNull) || setQ.win.any fun w => w.fmt == 7) = false ∧
    beganQ.orderReady taskM (setQ.instAt 0) 2 false = true ∧ Claims.Passes (.qput (seg 2)) beganQ setQ taskM 0 (shm + 8) 0 ∧
    Claims.Opens (cached (atSet setQ0 taskM)) setQ0 taskM ∧ (setQ0.win.any fun w => w.fmt == 7) = true ∧
    (taskM.inst? (setQ0.instAt 0)).map (fun x => x.has (.lsid 2)) = some false := by
  simp only [Claims.Opens, Claims.Fires, Claims.Passes]
  and_intros <;> first | with_reducible rfl | decide +kernel | nofun

def stPosted : Instr := .acas { seg 2 with t0 := noTarget }

theorem witness_StoresStage :
    Claims.Begins (.st (seg 3) .half) stateM setM' taskM (beganM (.st (seg 3) .half)) ∧
    Claims.Passes (.st (seg 3) .half) (beganM (.st (seg 3) .half)) setM' taskM 0 (scratchBase 0 + 8) 0 ∧
    (taskM.inst? (setM'.instAt 0)).map (fun x => x.has (.lsid 2)) = some false ∧ taskM.stagingUsed (taskM.stageQuad setM'.site) < 2048 ∧
    Claims.Begins stPosted stateM setM' taskM (beganM stPosted) ∧ Claims.Passes stPosted (beganM stPosted) setM' taskM 0 (shm + 8) 0 ∧
    (Claims.bankRule stPosted).map (fun x => (x.1.t0, x.2)) = some (noTarget, .acas) := by
  simp only [Claims.Begins, Claims.Opens, Claims.Fires, Claims.Passes, beganM]
  and_intros <;> first | with_reducible rfl | decide +kernel | nofun

/-- A selector of METER for each quantity, a word for LEAVE, and a launch line in segment 2. -/
def sel (w : Word) : Firing := setAt (.elem 0 0) (some (tok 0 [w])) (some (tok 0 [64])) none
def launch1 : XForm := { ext with lit := 2, la := true }
def stateS (w : Word) : State := cached (atSet (sel w) taskM)
def beganS (w : Word) : State := Claims.began (.launch launch1) (stateS w) (sel w) taskM

theorem witness_SystemWordsBegin :
    Claims.Opens (stateS 0x70) (sel 0x70) taskM ∧ performs (.grant ext) (sel 0x70) 0 = true ∧ performs (.meter ext) (sel 0x73) 0 = true ∧
    Claims.opA (.meter ext) (sel 0x73) 0 = 0x73 ∧ taskM.tcb.sched = 0 ∧ leaveCtlOk (Claims.opA (.leave ext) (sel 0x010) 0) = true ∧
    taskM.domainNamed (leaveDom (Claims.opA (.leave ext) (sel 0x010) 0)) = some 0 ∧ performs (.launch launch1) (sel 0) 0 = true ∧
    Claims.Passes (.launch launch1) (beganS 0) (sel 0) taskM 0 (shm + 64) 0 := by
  simp only [Claims.Opens, Claims.Fires, Claims.Passes]
  and_intros <;> first | with_reducible rfl | decide +kernel | nofun

/-! The events of an access: an operation of one word of task 1. -/

def opM (i : Instr) (w : OpWord) : OpRec := opOf i (setM 8 9) w
def taskOp (i : Instr) (w : OpWord) : Task := withOp taskM (opM i w)
def stateOp (i : Instr) (w : OpWord) : State := cached (withTasks [taskOp i w])
def wordAt (st : OpStage) (pa : Nat) : OpWord := { word1 st with pa := pa }
def ldM : Instr := .ld (seg 2) .half true
/-- A line of DRAM that was last written under another key: its code does not match. -/
def stateBad : State := { stateOp (.ldv (seg 1) 3) (wordAt .sent 0x40000) with lineKeys := [⟨0x40000, 7, 0⟩] }
/-- A staged write of the reader's own instance below its LSID, and a committed one, of the same bytes. -/
def taskSt : Task := { taskM with
  staged := [⟨0, .committed, 1, shm + 8, [1, 2], 0⟩, ⟨0, .inst ⟨0, 0, 0⟩, 1, shm + 9, [9, 9], 0⟩, ⟨0, .inst ⟨0, 0, 0⟩, 2, shm + 8, [8, 8], 0⟩] }

theorem witness_ReadsComplete :
    Claims.At (stateOp ldM (wordAt .sent (shm + 8))) 1 1 0 .sent (taskOp ldM (wordAt .sent (shm + 8))) (opM ldM (wordAt .sent (shm + 8))) ∧
    (stateOp ldM (wordAt .sent (shm + 8))).lineGood (shm + 8) 0 = true ∧
    Claims.At stateBad 1 1 0 .sent (taskOp (.ldv (seg 1) 3) (wordAt .sent 0x40000)) (opM (.ldv (seg 1) 3) (wordAt .sent 0x40000)) ∧
    stateBad.lineGood 0x40000 0 = false ∧ (taskOp (.ldv (seg 1) 3) (wordAt .sent 0x40000)).servedByStaging (some (⟨0, 0, 0⟩, 2)) 0x40000 4 = false ∧
    Claims.At (stateOp ldM (wordAt .ready (shm + 8))) 1 1 0 .ready (taskOp ldM (wordAt .ready (shm + 8))) (opM ldM (wordAt .ready (shm + 8))) ∧
    (stateOp ldM (wordAt .ready (shm + 8))).rangeHolds (shm + 8) 2 = false ∧
    (taskSt.staged.filter fun w => w.owner == .inst ⟨0, 0, 0⟩ && decide (w.lsid.toNat < 2) && decide (w.pa ≤ shm + 9 ∧ shm + 9 < w.pa + w.bytes.length)) =
      [⟨0, .inst ⟨0, 0, 0⟩, 1, shm + 9, [9, 9], 0⟩] ∧
    (taskSt.staged.filter fun w => w.owner == .inst ⟨0, 0, 0⟩ && decide (w.lsid.toNat < 2) && decide (w.pa ≤ shm + 8 ∧ shm + 8 < w.pa + w.bytes.length)) = [] ∧
    (taskSt.staged.filter fun w => w.owner == .committed && decide (w.pa ≤ shm + 8 ∧ shm + 8 < w.pa + w.bytes.length)) =
      [] ++ [⟨0, .committed, 1, shm + 8, [1, 2], 0⟩] := by
  simp only [Claims.At]
  and_intros <;> first | with_reducible rfl | decide +kernel | nofun

def acasM : Instr := .acas (seg 2)
/-- A held word of an instruction whose segment is of another type, and words that found no page and one in the tables. -/
def ireadBad : Instr := .iread (seg 2)
def stateCold (i : Instr) (w : OpWord) (m : Memory) : State := { withTasks [taskOp i w] with mem := m }
def filled : State := (stateCold ldM (word1 .walking) tables).fillTlb 0 (some 0) 0 8 page0 true

theorem witness_WaitingWordsLeave :
    Claims.At (stateOp ldM (word1 .waiting)) 1 1 0 .waiting (taskOp ldM (word1 .waiting)) (opM ldM (word1 .waiting)) ∧
    Claims.Passes ldM (stateOp ldM (word1 .waiting)) (setM 8 9) (taskOp ldM (word1 .waiting)) 0 (shm + 8) 0 ∧
    (opM ldM (word1 .waiting)).words.length = 0 + 1 ∧ (Claims.afterChecks ldM 1 1 0).isSome ∧ (stateOp ldM (word1 .waiting)).orderReady (taskOp ldM (word1 .waiting)) ⟨0, 0, 0⟩ 2 true = true ∧
    Claims.At (stateOp acasM (word1 .held)) 1 1 0 .held (taskOp acasM (word1 .held)) (opM acasM (word1 .held)) ∧
    (taskOp acasM (word1 .held)).atBase ⟨0, 0, 0⟩ = true ∧
    Claims.Passes acasM (stateOp acasM (word1 .held)) (setM 8 9) (taskOp acasM (word1 .held)) 0 (shm + 8) 0 ∧
    Claims.At (stateOp ireadBad (word1 .held)) 1 1 0 .held (taskOp ireadBad (word1 .held)) (opM ireadBad (word1 .held)) ∧
    (stateOp ireadBad (word1 .held)).checkAccess (taskOp ireadBad (word1 .held)) (some 0) [4] (accessOf ireadBad (setM 8 9) 0) = .fault F_SEG 0 ∧
    Claims.At (stateCold ldM (word1 .walking) tables) 1 1 0 .walking (taskOp ldM (word1 .walking)) (opM ldM (word1 .walking)) ∧
    (stateCold ldM (word1 .walking) tables).walkersBusy 0 = false ∧
    (stateCold ldM (word1 .walking) tables).walk 0 8 = some (page0, 2) ∧ Claims.Passes ldM filled (setM 8 9) (taskOp ldM (word1 .walking)) 0 (shm + 8) 0 ∧
    Claims.At (stateCold ldM (word1 .walking) []) 1 1 0 .walking (taskOp ldM (word1 .walking)) (opM ldM (word1 .walking)) ∧
    (stateCold ldM (word1 .walking) []).walkersBusy 0 = false ∧ (stateCold ldM (word1 .walking) []).walk 0 8 = none ∧
    (taskOp ldM (word1 .walking)).atBase ⟨0, 0, 0⟩ = true ∧
    Claims.At (stateOp acasM (wordAt .ready (shm + 8))) 1 1 0 .ready (taskOp acasM (wordAt .ready (shm + 8))) (opM acasM (wordAt .ready (shm + 8))) ∧
    (taskOp acasM (wordAt .ready (shm + 8))).isBase ⟨0, 0, 0⟩ = true ∧ (opM acasM (wordAt .ready (shm + 8))).words.take 0 = [] ∧
    Claims.At (stateOp (.unlock (seg 0)) (word1 .ready)) 1 1 0 .ready (taskOp (.unlock (seg 0)) (word1 .ready)) (opM (.unlock (seg 0)) (word1 .ready)) ∧
    (taskOp (.atomsc (seg 2) .aadd) (wordAt .ready (shm + 8))).serialBusy (.tile 0) = false := by
  simp only [Claims.At, Claims.Passes]
  and_intros <;> first | with_reducible rfl | decide +kernel | nofun

def atomM : Instr := .atomsc (seg 2) .afadd
def stateSerial : State := { stateOp atomM (wordAt .queued (shm + 8)) with serial := [⟨0, 1, 1, 0⟩], bankFlags := [⟨0, 0, 1⟩] }

theorem witness_BankOperationsPerform :
    Claims.At (stateOp acasM (wordAt .sent (shm + 8))) 1 1 0 .sent (taskOp acasM (wordAt .sent (shm + 8))) (opM acasM (wordAt .sent (shm + 8))) ∧
    bankOpOf acasM = some .acas ∧ Claims.Writable (stateOp acasM (wordAt .sent (shm + 8))) (shm + 8) 0 ∧ tables.wf = true ∧
    Claims.At stateSerial 1 1 0 .queued (taskOp atomM (wordAt .queued (shm + 8))) (opM atomM (wordAt .queued (shm + 8))) ∧
    bankOpOf atomM = some .afadd ∧ Claims.Writable stateSerial (shm + 8) 0 ∧ stateSerial.serial = [⟨0, 1, 1, 0⟩] := by
  simp only [Claims.At, Claims.Writable]
  and_intros <;> first | with_reducible rfl | decide +kernel | nofun

theorem witness_RepliesFinish :
    (∀ i ∈ [acasM, atomM, .iread (seg 4), .iwrite (seg 4), .lock (seg 2), .unlock (seg 0)],
      (stateOp i (wordAt .sent (shm + 8))).op? 1 1 = some (taskOp i (wordAt .sent (shm + 8)), opM i (wordAt .sent (shm + 8)))) ∧
    Claims.At (stateOp acasM (wordAt .sent (shm + 8))) 1 1 0 .sent (taskOp acasM (wordAt .sent (shm + 8))) (opM acasM (wordAt .sent (shm + 8))) ∧
    (Claims.bankRule acasM).isSome ∧ (⟨5, 0, 1, 0, []⟩ : BankReply).status = 0 ∧
    ((taskOp acasM (wordAt .sent (shm + 8))).inst? ⟨0, 0, 0⟩).map (fun x => x.has (.lsid 2)) = some false := by
  simp only [Claims.At]
  and_intros <;> first | with_reducible rfl | decide +kernel | nofun

/-- Structure words: full, deferred with one reader, and empty. -/
def stateWord (i : Instr) (st : OpStage) (ws : List WordState) : State := { stateOp i (wordAt st (shm + 8)) with words := ws }
def fullWord8 : WordState := ⟨shm + 8, .full, 3, none, 0, []⟩
def deferred8 : WordState := ⟨shm + 8, .deferred, 0, none, 0, [⟨1, 7, 0, 0⟩]⟩
def readM : Instr := .iread (seg 4)
def markM : Instr := .iwrite (seg 4)
def stateFullPool : State := { stateWord readM .sent [] with towers := State.reset.towers.map fun t => { t with poolUsed := 1048576 } }
/-- A word that its operation has dropped stands on a list. -/
def stateDropped : State := { stateOp readM { wordAt .reading (shm + 8) with dropped := true } with
  words := [⟨shm + 8, .deferred, 0, none, 0, [⟨1, 1, 0, 0⟩]⟩] }

theorem witness_StructureRequests :
    (∀ ws ∈ [[fullWord8], [deferred8], []],
      (stateWord readM .sent ws).op? 1 1 = some (taskOp readM (wordAt .sent (shm + 8)), opM readM (wordAt .sent (shm + 8)))) ∧
    (∀ ws ∈ [[fullWord8], [deferred8], []], (stateWord readM .sent ws).words.Pairwise fun x y => x.addr < y.addr) ∧
    Claims.At (stateWord readM .sent [deferred8]) 1 1 0 .sent (taskOp readM (wordAt .sent (shm + 8))) (opM readM (wordAt .sent (shm + 8))) ∧
    (stateWord readM .sent [fullWord8]).wordAt (shm + 8) = some fullWord8 ∧ (stateWord readM .sent [fullWord8]).lineGood (shm + 8) 0 = true ∧
    (stateWord readM .sent [deferred8]).wordAt (shm + 8) = some deferred8 ∧ structTower (shm + 8) = 0 ∧
    ((stateWord readM .sent []).tower 0).poolUsed < 1048576 ∧ 1048576 ≤ (stateFullPool.tower 0).poolUsed ∧ stateFullPool.wordAt (shm + 8) = none ∧
    Claims.At (stateWord readM .queued []) 1 1 0 .queued (taskOp readM (wordAt .queued (shm + 8))) (opM readM (wordAt .queued (shm + 8))) ∧
    Claims.At (stateWord markM .sent [fullWord8]) 1 1 0 .sent (taskOp markM (wordAt .sent (shm + 8))) (opM markM (wordAt .sent (shm + 8))) ∧
    (taskOp markM (wordAt .sent (shm + 8))).committedOp (shm + 8) (fun _ => true) = none ∧ (stateDropped.op? 1 1).isSome := by
  simp only [Claims.At]
  and_intros <;> first | with_reducible rfl | decide +kernel | nofun

/-- Locks of slot 2 of bank 0: free, held by the task, held by another, and held by another while 64 wait at the bank. -/
def lockM : Instr := .lock (seg 2)
def stateLock (ls : List Lock) : State := { stateOp lockM (wordAt .sent (shm + 8)) with locks := ls }
def mine2 : Lock := ⟨0, 2, 1, ⟨0, 0, 0⟩, []⟩
def other2 (n : Nat) : Lock := ⟨0, 2, 6, ⟨0, 0, 0⟩, List.replicate n ⟨7, 1, 0, 0⟩⟩
/-- UNLOCK of the lock with id 2, which the task holds. -/
def setUnlock : Firing := setAt (.tile 0) (some (tok 7 [4, 2])) (some (tok 0 [9])) none
def opUnlock : OpRec := opOf (.unlock (seg 0)) setUnlock (word1 .sent)
def stateUnlock (ls : List Lock) : State := { withTasks [withOp taskM opUnlock] with locks := ls }

theorem witness_LocksGrantAndRelease :
    Claims.At (stateLock []) 1 1 0 .sent (taskOp lockM (wordAt .sent (shm + 8))) (opM lockM (wordAt .sent (shm + 8))) ∧
    ([] : List Lock).find? (fun l => l.bank == 0 && l.slot == 2) = none ∧
    [mine2].find? (fun l => l.bank == bankOf (shm + 8) && l.slot == (shm + 8) / 4 % 256) = some mine2 ∧
    [other2 0].find? (fun l => l.bank == 0 && l.slot == 2) = some (other2 0) ∧ (other2 0).task ≠ 1 ∧
    Claims.lockWaiters (stateLock [other2 63]) 0 < 64 ∧ 64 ≤ Claims.lockWaiters (stateLock [other2 64]) 0 ∧
    Claims.At (stateUnlock [mine2]) 1 1 0 .sent (withOp taskM opUnlock) opUnlock ∧
    [mine2].find? (fun l => lockId l.bank l.slot == 2 && l.task == 1) = some mine2 ∧ mine2.waiters = [] ∧
    [{ mine2 with waiters := [⟨7, 1, 0, 0⟩] }].find? (fun l => lockId l.bank l.slot == 2 && l.task == 1) =
      some { mine2 with waiters := [⟨7, 1, 0, 0⟩] } ∧ [other2 0].find? (fun l => lockId l.bank l.slot == 2 && l.task == 1) = none := by
  simp only [Claims.At]
  and_intros <;> first | with_reducible rfl | decide +kernel | nofun

/-- A queue of two entries of one word at offset 128, its ring at 192. -/
def control (head tail : Word) : Memory := (((((tables.writeWord (shm + 128) 1).writeWord (shm + 132) 1).writeWord (shm + 136) 64).writeWord
  (shm + 140) head).writeWord (shm + 144) tail).writeWord (shm + 148) 5
def qline (head tail : Word) : QueueLine := ⟨0, 2, 1, 64, head, tail, 5⟩
def opQueue (i : Instr) (st : OpStage) : OpRec := opOf i { setM 128 9 with win := if i matches .qput _ then win 1 else [] } (wordAt st (shm + 128))
def stateQueue (i : Instr) (st : OpStage) (head tail : Word) (ws : List QueueWait) : State :=
  { cached (withTasks [withOp taskM (opQueue i st)]) with mem := control head tail, queueWaits := ws }
def putM : Instr := .qput (seg 2)
def getM : Instr := .qget (seg 2)
def wait1 (get : Bool) : QueueWait := ⟨shm + 128, get, 1, 1, 0, 5⟩
def taskQ (i : Instr) (st : OpStage) : Task := withOp taskM (opQueue i st)

/-- One entry in use: a put finds the second entry, a get the first; two in use, a put waits; none, a get waits. -/
theorem witness_QueuesServe :
    (stateQueue putM .sent 0 1 []).taskQueue (taskQ putM .sent) (opQueue putM .sent) 0 = some (qline 0 1) ∧ (qline 0 1).misfit (win 1) = none ∧
    (stateQueue putM .sent 0 1 []).queueTurn (qline 0 1) false (shm + 128) 1 1 0 = true ∧
    (stateQueue putM .sent 0 1 []).checkAccess (taskQ putM .sent) (some 0) [2] ⟨2, 128 + BitVec.ofNat 32 (64 + 1 * 4 * 1 + 4 * 0), 4, true, false, 2⟩ =
      .ok (shm + 196) 0 ∧
    (stateQueue getM .queued 0 1 [wait1 true]).taskQueue (taskQ getM .queued) (opQueue getM .queued) 0 = some (qline 0 1) ∧
    (stateQueue getM .queued 0 1 [wait1 true]).queueTurn (qline 0 1) true (shm + 128) 1 1 0 = true ∧
    (stateQueue putM .sent 0 2 []).taskQueue (taskQ putM .sent) (opQueue putM .sent) 0 = some (qline 0 2) ∧
    (stateQueue putM .sent 0 2 []).queueTurn (qline 0 2) false (shm + 128) 1 1 0 = false ∧
    (stateQueue getM .queued 1 1 [wait1 true]).queueTurn (qline 1 1) true (shm + 128) 1 1 0 = false ∧
    Claims.At (stateQueue getM .queued 1 1 [wait1 true]) 1 1 0 .queued (taskQ getM .queued) (opQueue getM .queued) ∧
    [wait1 true].find? (fun w => w.task == 1 && w.op == 1 && w.j == 0) = some (wait1 true) ∧
    (stateQueue getM .queued 0 1 [wait1 true]).time.toNat ≤ (wait1 true).deadline ∧
    (wait1 true).deadline ≤ (stateQueue getM .queued 1 1 [wait1 true]).time.toNat ∧
    (stateQueue getM .queued 1 1 [wait1 true]).queueAhead (shm + 128) = false := by
  simp only [Claims.At]
  and_intros <;> first | with_reducible rfl | decide +kernel | nofun

/-- A stream of four elements from offset 64, reading with its line held, and writing with its next word in its buffer. -/
def stream1 (i : Instr) (w : Bool) : Stream :=
  ⟨3, 2, 0, setM 64 9, i, w, 1, 64, 4, 4, [(4, 4)], false, 0, 0, none, 1, 1, [⟨1, 1, 0x3F800000⟩], [(shm + 64, [1, 2, 3, 4, 5, 6, 7, 8])], [], 0, false,
    (1, 0), false, false⟩
def readS : Stream := stream1 (.sopenRead (seg 1) 1) false
def writeS : Stream := stream1 (.sopenWrite (seg 1) 1) true
def insts (n : Nat) : List Instance := (List.range n).map fun k => ⟨⟨0, 0, BitVec.ofNat 12 k⟩, k, 0, 0, false, none, [], 0, [], 0, 0⟩
def taskStream (x : Stream) : Task := { taskM with streams := [x], insts := insts 4, windows := [⟨0, 0, 0, 4⟩] }
def stateStream (x : Stream) : State := cached (withTasks [taskStream x])
/-- A token of one word, of two where one has room, and of one where none has. -/
def flightOf (ws : List Word) : Flight := ⟨1, .elem 0 0, .tile 0, 0, ⟨{ tag0 with iter := 2, fmt := 1, port := 2 }, ws⟩, none, none⟩
def flightW : Flight := flightOf [0x40000000]
def fullS (n : Nat) : Stream := { writeS with buffer := List.replicate n ⟨3, 1, 0⟩ }
def stateBuffer (n : Nat) : State := { stateStream (fullS n) with cur := some (.event (.streamDataArrival (flightOf [1, 2])), 0) }

theorem witness_StreamElementsMove :
    Claims.StreamGoes (stateStream readS) 1 (taskStream readS) readS ∧
    (stateStream readS).checkAccess (taskStream readS) (some 0) (segTypes readS.instr) (readS.access (affineOffset 64 readS.dims 1) false) = .ok (shm + 68) 0 ∧
    (stateStream readS).admitted (taskStream readS) (readS.firing.instAt 1) = true ∧ readS.outs.length + 1 < readS.runMax ∧
    readS.lines.find? (fun l => l.1 == shm + 68 - (shm + 68) % 64) = some (shm + 68 - (shm + 68) % 64, [1, 2, 3, 4, 5, 6, 7, 8]) ∧
    Claims.StreamGoes (stateStream writeS) 1 (taskStream writeS) writeS ∧
    (stateStream writeS).checkAccess (taskStream writeS) (some 0) (segTypes writeS.instr) (writeS.access (affineOffset 64 writeS.dims 1) true) = .ok (shm + 68) 0 ∧
    writeS.buffer.find? (fun b => b.off == (writeS.firing.tag.iter + BitVec.ofNat 12 1).toNat) = some ⟨1, 1, 0x3F800000⟩ ∧
    (taskStream writeS).stagingUsed ((taskStream writeS).stageQuad writeS.firing.site) < 2048 ∧
    (stateStream writeS).task? flightW.task = some (taskStream writeS) ∧ (taskStream writeS).writeStream? flightW.tok.tag = some writeS ∧
    (taskStream writeS).bufferRoom writeS flightW.tok = 1 ∧
    (stateBuffer 63).task? 1 = some (taskStream (fullS 63)) ∧ (taskStream (fullS 63)).writeStream? (flightOf [1, 2]).tok.tag = some (fullS 63) ∧
    (taskStream (fullS 63)).bufferRoom (fullS 63) (flightOf [1, 2]).tok = 1 ∧ (taskStream (fullS 64)).bufferRoom (fullS 64) flightW.tok = 0 ∧
    (stateBuffer 64).task? 1 = some (taskStream (fullS 64)) ∧ (taskStream (fullS 64)).writeStream? flightW.tok.tag = some (fullS 64) := by
  simp only [Claims.StreamGoes]
  and_intros <;> first | with_reducible rfl | decide +kernel | nofun

/-- An opener of a word whose descriptor (of 4 elements, stride 4, SID 2, runs of 4) lies at 64, one of 256 lines, an indirect one, and one with a remote hoop. -/
def descr (w0 w1 w3 w6 : Word) : Memory := (((tables.writeWord (shm + 64) w0).writeWord (shm + 68) w1).writeWord (shm + 76) w3).writeWord (shm + 88) w6
def descrL : Memory := (((descr 0x342 0x70007 64 0).writeWord (shm + 72) 3).writeWord (shm + 80) 512).writeWord (shm + 84) 4096
def pattL : Pattern := ⟨2, 4, 256, [(8, 64), (8, 512), (4, 4096)], false, 0, 0, none⟩
def patt (count : Nat) (stride : Word) (r : Option Nat) : Pattern := ⟨2, 4, count, [(count, stride)], false, 0, 0, r⟩
def openR : Instr := .sopenRead (seg 1) 1
def opOpen (i : Instr) (st : OpStage) : OpRec := opOf i (setM 8 64) (wordAt st (shm + 64))
def taskOpen (i : Instr) (st : OpStage) : Task := withOp taskM (opOpen i st)
def stateOpen (i : Instr) (st : OpStage) (m : Memory) (ts : List Task) : State := { cached (withTasks (taskOpen i st :: ts)) with mem := m }
def openI : Instr := .sindRead (seg 1) 1
def pattI : Pattern := ⟨2, 4, 256, [], true, 0, 0, none⟩
def largeOf (p : Pattern) : Bool := p.large 0 8 fun _ => 0
def openScr : Instr := .sopenRead (seg 3) 1
/-- A task of the same address space on hoop 5. -/
def task5 : Task := { taskM with id := 2, hoop := 5 }
def remoteDescr : OpRec := opOf openScr (setM 8 64) { wordAt .queued (shm + 64) with data := [0x302, 3, 0, 4, 0, 0, 0x80000005, 0] }
def stateRemote : State := { cached (withTasks [withOp taskM remoteDescr, task5]) with mem := tables }
def setClose : Firing := setAt (.tile 0) (some (tok 0 [7])) none none
/-- A write stream with a staged element that has not performed, which an SBAR waits for. -/
def taskSB : Task := { taskStream writeS with staged := [⟨0, .stream 3, 0, shm, [1], 0⟩] }
def setWait : Firing := setAt (.tile 0) (some (tok 0 [4])) (some (tok 0 [9])) none
def close2 : SForm := { seg 0 with lb := true, lit := 2 }

theorem witness_StreamsOpenAndClose :
    Claims.At (stateOpen openR .ready (descr 0x302 3 4 0) []) 1 1 0 .ready (taskOpen openR .ready) (opOpen openR .ready) ∧
    ((opOpen openR .ready).at 0).data = [] ∧ ((opOpen openI .ready).at 0).data = [] ∧ ((opOpen openScr .ready).at 0).data = [] ∧
    affinePattern ((stateOpen openR .ready (descr 0x302 3 4 0) []).descriptor (taskOpen openR .ready) (opOpen openR .ready) 0) = some (patt 4 4 none) ∧
    largeOf (patt 4 4 none) = false ∧ (taskOpen openR .ready).enginesTaken = [] ∧
    affinePattern ((stateOpen openR .ready descrL []).descriptor (taskOpen openR .ready) (opOpen openR .ready) 0) = some pattL ∧
    largeOf pattL = true ∧ (stateOpen openR .ready (descr 0x302 3 4 0) []).lineGood (shm + 64) 0 = true ∧
    indirectPattern ((stateOpen openI .ready (descr 0x302 255 0 0) []).descriptor (taskOpen openI .ready) (opOpen openI .ready) 0) = some pattI ∧
    largeOf pattI = false ∧
    affinePattern ((stateOpen openScr .ready (descr 0x302 3 4 0x80000005) []).descriptor (taskOpen openScr .ready) (opOpen openScr .ready) 0) = some (patt 4 4 (some 5)) ∧
    affinePattern (remoteDescr.at 0).data = some (patt 4 4 (some 5)) ∧
    (taskM.segment openScr.fields.seg).typ = 3 ∧
    Claims.At stateRemote 1 1 0 .queued (withOp taskM remoteDescr) remoteDescr ∧
    task5.hoop = 5 ∧ task5.tcb.asid = taskM.tcb.asid ∧ task5.phase ≠ .saved ∧
    Claims.Fires (atSet setClose task1) setClose task1 ∧ operand (.sclose close2) setClose 0 0 = .data 0 7 ∧
    predicateFalse (.sclose close2) setClose 0 = false ∧ task1.openStreams.find? (fun x => x.sid == (close2.lit &&& 31#32).toNat) = none ∧
    Claims.Fires (atSet setClose (taskStream writeS)) setClose (taskStream writeS) ∧
    (taskStream writeS).openStreams.find? (fun x => x.sid == (close2.lit &&& 31#32).toNat) = some writeS ∧
    (taskStream readS).openStreams.find? (fun x => x.sid == (close2.lit &&& 31#32).toNat) = some readS ∧
    performs (.sbar (seg 0)) set2 0 = true ∧ task1.unperformed (Claims.opA (.sbar (seg 0)) set2 0) = [] ∧
    performs (.sbar (seg 0)) setWait 0 = true ∧ taskSB.unperformed (Claims.opA (.sbar (seg 0)) setWait 0) = [3] := by
  simp only [Claims.At, Claims.Fires]
  and_intros <;> first | with_reducible rfl | decide +kernel | nofun

/-! Tokens, contexts, instances, barriers and launches: the placed word is ADD. -/

def addWord : Word := 0b0000001_0000_0_0_0_000000101_111111111
def taskAdd : Task := fetchTask 1 addWord (.elem 0 0)
def addF : StdForm := ⟨.keep, false, false, false, 5, 0x1FF, 0⟩
def flight (fmt : BitVec 3) (p : BitVec 2) (w : Word) : Flight := ⟨1, .elem 1 0, .elem 0 0, 0, ⟨{ tag0 with fmt := fmt, port := p }, [w]⟩, none, none⟩
def waitA : Wait := ⟨.elem 0 0, ⟨tag0, [7]⟩, 0, false, none, .elem 2 0, none⟩
def taskWait : Task := { taskAdd with waiting := [waitA] }
/-- CVT from INT8 codes (R171), whose port A takes headers. -/
def cvtWord5 : Word := 0b1110000_0000_0_1_0_000000101_111111111
def taskCvt : Task := { taskAdd with blocks := taskAdd.blocks.map fun b => { b with code := [⟨cvtWord5, 0x150, .elem 0 0, 0⟩] } }
def cvt5 : StdForm := ⟨.keep, false, true, false, 5, 0x1FF, 0x150⟩
def flightH : Flight := flight 6 0 0xA0012
def flightGone : Flight := { flight 0 0 7 with tok := ⟨{ tag0 with ctx := 9 }, [7]⟩ }

theorem witness_TokensMatch_arrives : Claims.Arrives (withTasks [taskWait]) (flight 0 1 9) taskWait (.add addF) ∧
    Claims.Arrives (withTasks [taskAdd]) (flight 0 0 9) taskAdd (.add addF) ∧ Claims.Arrives (withTasks [taskCvt]) flightH taskCvt (.cvt cvt5) :=
  ⟨⟨⟨rfl, rfl, rfl, rfl, rfl, rfl, ⟨_, rfl, by decide +kernel⟩, rfl, by decide +kernel, by decide +kernel, ⟨_, rfl⟩⟩, rfl, rfl⟩,
    ⟨⟨rfl, rfl, rfl, rfl, rfl, rfl, ⟨_, rfl, by decide +kernel⟩, rfl, by decide +kernel, by decide +kernel, ⟨_, rfl⟩⟩, rfl, rfl⟩,
    ⟨⟨rfl, rfl, rfl, rfl, rfl, rfl, ⟨_, rfl, by decide +kernel⟩, rfl, by decide +kernel, by decide +kernel, ⟨_, rfl⟩⟩, rfl, rfl⟩⟩

theorem witness_TokensMatch : (withTasks [taskWait]).cur = none ∧ ({ withTasks [] with cur := some (.event (.tokenRoute flightH), 0) } : State).cur.isSome ∧
    (Claims.integerRule (.add addF)).isSome ∧ Instr.partners (.add addF) 1 = [0] ∧
    ((taskWait.mates (flight 0 1 9) false 0).find? fun w => w.covers (flight 0 1 9).tok.tag.iter) = some waitA ∧ waitA.tok.words = [7] ∧
    ({ taskWait with waiting := Claims.without taskWait waitA } : Task).openTo ((withTasks [taskWait]).setsOf 1) (.elem 0 0) 0 1 2 = true ∧
    Instr.partners (.add addF) 0 = [1] ∧ ((taskAdd.mates (flight 0 0 9) false 1).find? fun w => w.covers 0) = none ∧
    taskAdd.openTo ((withTasks [taskAdd]).setsOf 1) (.elem 0 0) 0 1 1 = true ∧ taskAdd.spillNear (.add addF) (flight 0 0 9) = false ∧
    cvtSfmt cvt5.lit = 5 ∧ headerDefect flightH.tok.words = false ∧
    taskCvt.latchOpen flightH = true ∧ taskAdd.context? 9 = none ∧ (withTasks [taskAdd]).portClosed flightGone = false := by
  and_intros <;> first | with_reducible rfl | decide +kernel | nofun

/-- The partner waits in spill, counted beside its presence bit. -/
def bit0 : BitVec 8 := Config.spillHash 0 0 0 0
def slot0 : SpillSlot := ⟨0, .elem 0 0, [bit0]⟩
def waitS : Wait := { waitA with slot := some slot0 }
def taskSpill : Task := { taskAdd with waiting := [waitS], filters := [⟨.elem 0 0, bit0, 1⟩] }

theorem witness_TokensMatch_spill : Claims.Reaches (withTasks [taskSpill]) (flight 0 1 9) taskSpill (.add addF) ∧
    ((taskSpill.mates (flight 0 1 9) (taskSpill.spillNear (.add addF) (flight 0 1 9)) 0).find? fun w => w.covers (flight 0 1 9).tok.tag.iter) =
      some waitS ∧ waitS.tok.words = [7] ∧ waitS.slot = some slot0 ∧ (∀ u ∈ taskSpill.waiting, u.slot = some slot0 → u = waitS) ∧
    (∀ a ∈ taskSpill.accums, a.slot ≠ some slot0) ∧
    { taskSpill with waiting := Claims.without taskSpill waitS }.openTo ((withTasks [taskSpill]).setsOf 1) (.elem 0 0) 0 1 2 = true := by
  have near : taskSpill.spillNear (.add addF) (flight 0 1 9) = true := by
    rw [Task.spillNear, show searchSpan (.add addF) (flight 0 1 9).tok = (0, 1) from rfl]
    show (presenceBits { (flight 0 1 9).tok.tag with iter := 0 } 1).any _ = true
    rw [show presenceBits { (flight 0 1 9).tok.tag with iter := 0 } 1 = [bit0] from rfl]
    simp [taskSpill, flight]
  rw [near]
  refine ⟨⟨rfl, rfl, rfl, rfl, rfl, rfl, ⟨_, rfl, ?_⟩, rfl, ?_, ?_, ⟨_, rfl⟩⟩, ?_, rfl, rfl, ?_, ?_, ?_⟩
  · decide +kernel
  · decide +kernel
  · decide +kernel
  · rfl
  · intro u h _; exact List.mem_singleton.mp h
  · intro a h; cases h
  · rw [show Claims.without taskSpill waitS = [] by simp [Claims.without, taskSpill]]; decide +kernel

/-- Requests for a child under block 3: one that is live, one of the oldest chain, and one of the pool; a hoop with a retired context. -/
def kid : Context := { ctx1 with ctx := 4, seq := 2, parent := some tag0, key := 3, injected := false }
def taskKid : Task := { task1 with contexts := [ctx1, kid], reserve := 1 }
def request (ctx iter : BitVec 12) : CtxRequest := ⟨1, { tag0 with ctx := ctx, iter := iter }, 3, none, [flight 0 0 7], false⟩
def stray : Context := { ctx1 with ctx := 7, seq := 5 }
def taskPool : Task := { task1 with contexts := [ctx1, stray], reserve := 1 }
def stateSweep (sw : Option (List (BitVec 12 × Nat))) : State :=
  { withTasks [taskKid] with hoops := State.reset.hoops.set 0 { Hoop.reset with retired := [(9, 1), (10, 1)], sweep := sw } }

theorem witness_ContextsGrantAndSweep :
    (withTasks [taskKid]).task? 1 = some taskKid ∧ taskKid.phase = .running ∧ taskKid.frozen = .none ∧ taskKid.ended = false ∧
    taskKid.context? 0 = some ctx1 ∧ taskKid.childOf (request 0 0) = some kid ∧ taskKid.childOf (request 0 1) = none ∧
    (withTasks [taskKid]).requestOrdered taskKid (request 0 1) = false ∧ (withTasks [taskPool]).requestOrdered taskPool (request 7 0) = false ∧
    (withTasks [taskKid]).requestBehind taskKid (taskKid.onChain (request 0 1)) = false ∧
    (withTasks [taskKid]).grantFor taskKid (taskKid.onChain (request 0 1)) = .fromReserve ∧ (withTasks [taskKid]).ctxFree 0 5 = true ∧
    taskPool.context? 7 = some stray ∧ taskPool.childOf (request 7 0) = none ∧
    (withTasks [taskPool]).requestBehind taskPool (taskPool.onChain (request 7 0)) = false ∧
    (withTasks [taskPool]).grantFor taskPool (taskPool.onChain (request 7 0)) = .fromPool ∧
    ((stateSweep none).hoop 0).sweep = none ∧ ((stateSweep none).hoop 0).retired ≠ [] ∧ 0 < (stateSweep none).hoops.length ∧
    ((stateSweep (some [(9, 1)])).hoop 0).sweep = some [(9, 1)] ∧ (stateSweep (some [(9, 1)])).sweepHeld 0 = false ∧
    (stateSweep (some [(9, 1)])).tokenAhead 0 0 = false := by
  and_intros <;> first | with_reducible rfl | decide +kernel | nofun

/-- A complete base instance that wrote a frame word, staged a word and holds an exit to block 2. -/
def inst1 : Instance := ⟨⟨0, 0, 0⟩, 1, 4, 8, true, some (.exit 1 (.data 0 7) tag0), [⟨3, 0x22, 0⟩], 1, [shm + 64], 0, 0⟩
def taskDone : Task := { taskE with
  contexts := [ctx1], insts := [inst1]
  staged := [⟨0, .inst ⟨0, 0, 0⟩, 2, shm, [1, 2, 3, 4], 0⟩], stagedOps := [⟨0, ⟨0, 0, 0⟩, 2, shm + 8, .clear, none⟩] }

theorem witness_InstancesCommit :
    (withTasks [taskDone]).task? 1 = some taskDone ∧ taskDone.inst? ⟨0, 0, 0⟩ = some inst1 ∧ taskDone.phase = .running ∧ taskDone.frozen = .none ∧
    taskDone.complete inst1 = true ∧ taskDone.window? 0 0 = some ⟨0, 0, 0, 1⟩ ∧ (withTasks [taskDone]).matrixHolds taskDone ⟨0, 0, 0⟩ = false ∧
    (withTasks [taskDone]).baseHolds taskDone ⟨0, 0, 0⟩ = false ∧
    taskDone.launches.length + inst1.launches.length ≤ 32 ∧ taskDone.ops = [] ∧ inst1.held = some (.exit 1 (.data 0 7) tag0) ∧
    (taskDone.block? 0).bind (fun b => b.exits[1]?) = some ⟨.keep, some 2, false⟩ ∧ (⟨.keep, some 2, false⟩ : ExitEntry).tact ≠ .parent ∧
    (⟨.keep, some 2, false⟩ : ExitEntry).tact ≠ .child ∧ taskDone.ended = false ∧ (taskDone.context? 0).isSome ∧ taskDone.squashes = [] := by
  and_intros <;> first | with_reducible rfl | decide +kernel | nofun

/-- A task before its injection, and one that has been quiet for its hoop's count. -/
def taskNew : Task := { task1 with contexts := [], insts := [], windows := [], reserve := 1 }
def taskQuiet : Task := { taskAdd with quiet := 100000 }

theorem witness_EntryAndQuiescence :
    (withTasks [taskNew]).task? 1 = some taskNew ∧ taskNew.phase = .running ∧ taskNew.frozen = .none ∧ taskNew.ended = false ∧
    taskNew.id = 1 ∧ taskNew.tcb.sched = 0 ∧ taskNew.entryNext = 0 ∧ taskNew.contexts = [] ∧ 0 < taskNew.reserve ∧ (withTasks [taskNew]).ctxFree 0 0 = true ∧
    taskAdd.quiet < ((withTasks [taskAdd]).hoop 0).quiet.toNat ∧ ((withTasks [taskQuiet]).hoop 0).quiet.toNat ≤ taskQuiet.quiet ∧
    ((taskQuiet.oldestChain.getLast?).bind taskQuiet.oldestInst).isSome ∧ (taskQuiet.block? 0).isSome := by
  and_intros <;> first | with_reducible rfl | decide +kernel | nofun

/-- Sinks of the phase and of barrier 3 (block 0, instructions 0 and 1), and their control tokens. -/
def bar (n : Nat) : Barrier := ⟨n, [(0, 0), (0, 1)], [(0, 1)], 4⟩
def taskBar : Task := { task1 with phases := bar 0, barriers := [bar 3] }
def setBar : Firing := setAt (.elem 0 0) (some (tok 7 [0x303])) none none
def eosF : StdForm := { std with lb := true, lit := 1 }
def barF : StdForm := { std with lb := true, lit := 0x103 }
def setCount (w : Word) : Firing := setAt (.elem 0 0) (some (tok 0 [w])) none none
/-- An earlier load that is outstanding. -/
def setCut : Firing := { set2 with cut := 2 }
def taskFence : Task := taskOp ldM (wordAt .sent (shm + 8))
def setNull2 : Firing := setAt (.elem 0 0) (some (tok 7 [1])) (some (tok 0 [9])) none

theorem witness_BarriersAndFences :
    Claims.Fires (atSet set2 task1) set2 task1 ∧ controlToken set2.a = none ∧ eosSink std.lit = false ∧ barrSink std.lit = false ∧
    Claims.Fires (atSet setEos taskBar) setEos taskBar ∧ Claims.Sinks (.eos eosF) setEos (tok 7 [2]) ∧ eosSink eosF.lit = true ∧
    (setEos.tag.blk, setEos.tag.inst) ∉ (bar 0).arrived ∧
    Claims.Fires (atSet setBar taskBar) setBar taskBar ∧ Claims.Sinks (.barr barF) setBar (tok 7 [0x303]) ∧ barrSink barF.lit = true ∧
    bits ((tok 7 [0x303]).words.headD 0) 15 8 = barrId barF.lit ∧ taskBar.barrier? false (barrId barF.lit) = some (bar 3) ∧
    bits ((tok 7 [0x303]).words.headD 0) 15 8 ≠ barrId { barF with lit := 0x104 }.lit ∧
    Claims.Fires (atSet (setCount 4) taskBar) (setCount 4) taskBar ∧ taskBar.barrier? (bwaitPhase { std with lit := 3 }.lit) (barrId { std with lit := 3 }.lit) = some (bar 3) ∧
    ((bar 3).count - (4 : Word)).toNat < 2 ^ 31 ∧ ¬((bar 3).count - (5 : Word)).toNat < 2 ^ 31 ∧
    Claims.Fires (atSet setCut taskFence) setCut taskFence ∧ (atSet setCut taskFence).fencePending taskFence setCut.cut (fenceScope std.lit) = true ∧
    performs (.fence std) setCut 0 = true ∧ Claims.Fires (atSet set2 taskFence) set2 taskFence ∧
    (atSet set2 taskFence).fencePending taskFence set2.cut (fenceScope std.lit) = false ∧
    Claims.Fires (atSet setNull2 task1) setNull2 task1 ∧ performs (.fence std) setNull2 0 = false ∧
    ((opM lockM (wordAt .queued (shm + 8))).at 0).stage = .queued ∧ task1.outside 0 ((opM lockM (wordAt .queued (shm + 8))).at 0).pa = true := by
  simp only [Claims.Fires, Claims.Sinks]
  and_intros <;> first | with_reducible rfl | decide +kernel | nofun

/-- A state whose tables map the first 32 MiB of address space 0 by one leaf. -/
def HasTables (s : State) (p : BitVec 64) : Prop := s.readEntry (s.rootBase + 8 * (0 : BitVec 16).toNat) = 0x21 ∧
  s.readEntry (entryAddr 0x21 + 8 * 0) = 0x41 ∧ s.readEntry (entryAddr 0x41 + 8 * 0) = 0x61 ∧ s.readEntry (entryAddr 0x61 + 8 * 0) = p
def LargeLeaf (p : BitVec 64) : Prop := (!entryPresent p) = false ∧ entryLeaf p = true ∧ leafValid p 2 = true

theorem walk_low (s : State) (p : BitVec 64) (t : HasTables s p) (q : LargeLeaf p) (va : Nat) (h : va < 2 ^ 25) : s.walk 0 va = some (p, 2) := by
  obtain ⟨l0, l1, l2, l3⟩ := t
  have e0 : vaIndex va 0 = 0 := by simp only [vaIndex]; omega
  have e1 : vaIndex va 1 = 0 := by simp only [vaIndex]; omega
  have e2 : vaIndex va 2 = 0 := by simp only [vaIndex]; omega
  have t1 : (entryTable 0x21 && !entryLeaf 0x21) = true := by decide +kernel
  have p1 : (!entryPresent 0x41) = false ∧ entryLeaf 0x41 = false ∧ entryTable 0x41 = true := by decide +kernel
  have p2 : (!entryPresent 0x61) = false ∧ entryLeaf 0x61 = false ∧ entryTable 0x61 = true := by decide +kernel
  unfold State.walk
  simp only [l0, t1, if_true, State.walkFrom, e0, e1, e2, l1, l2, l3, p1, p2, q.1, q.2.1, q.2.2]
  simp

theorem translate_low (s : State) (t : HasTables s page0) (va : Nat) (h : va < 2 ^ 25) (w : Bool) : s.translate 0 va w none = .ok (shm + va) := by
  have p : ∀ w, leafPermits page0 w (entryKey page0) = true ∧ entryHost page0 = false ∧ entryAddr page0 = shm := by decide +kernel
  simp only [State.translate, walk_low s page0 t (by unfold LargeLeaf; decide +kernel) va h, Option.getD_none, (p w).1, if_true, leafPa, beq_self_eq_true,
    (p w).2, Bool.false_eq_true, if_false]
  rw [Nat.mod_eq_of_lt h]

theorem readVa_low (s : State) (t : HasTables s page0) (n va : Nat) (h : va + n ≤ 2 ^ 25) : s.readVa 0 va n = .ok (s.mem.readBytes (shm + va) n) := by
  induction n generalizing va with
  | zero => rfl
  | succ n ih => rw [State.readVa, translate_low s t va (by omega), ih (va + 1) (by omega)]; rfl

/-- A launch line at shm + 64 with its notice to tower 2 for the TCB at 0x1000, and that TCB. -/
def launchLine (n : Word) : Memory := ((tables.writeWord (shm + 64) n).writeWord (shm + 68) 2).writeWord (shm + 72) 0x1000
def stateLaunch (n : Word) : State := { withTasks [] with mem := launchLine n, bringUp := .running, run := true, node := 5 }
/-- An earlier decrement of the same commit is on its way. -/
def stateAhead : State := { withTasks [] with cur := some (.event (.launchDecrement ⟨none, 4⟩), 1), agenda := [.event (.launchDecrement ⟨none, 4⟩)] }
def lineWord (n : Word) (k : Nat) : Word := (stateLaunch n).mem.readWord (shm + 64 + 4 * k)
def fullTower : Tower := { Tower.reset with ready := List.replicate 4096 ⟨0, 0, 0, 0, none, none, 0, 0, none⟩ }
def stateFull : State := { stateLaunch 1 with towers := State.reset.towers.set 2 fullTower }
def stateEgress : State := { stateLaunch 1 with egcfg := State.reset.egcfg.set 3 (1#64 <<< 49 ||| BitVec.ofNat 64 (shm + 64)) }
def notice1 : Notice := ⟨2, 0x1000, 0⟩
def ready1 : Ready := ⟨0x1000, 0, 5, 0, none, none, 0, 0, none⟩
def stateReady (m : Memory) : State := { withTasks [] with bringUp := .running, run := true, mem := m, towers := State.reset.towers.set 2 { Tower.reset with ready := [ready1], nextSeq := 1 } }
def tcbMem : Memory := (tables.writeWord (shm + 0x1000 + 20) 1).writeWord (shm + 0x1000 + 32) 0x00200001

theorem witness_LaunchesAndNotices :
    lineWord 1 0 = 1 ∧ lineWord 2 0 = 2 ∧ lineWord 0 0 = 0 ∧ bitsZero (lineWord 1 1) 15 2 = true ∧ (lineWord 1 2).toNat % 64 = 0 ∧
    (∀ k < 12, lineWord 1 (4 + k) = 0) ∧ (stateLaunch 1).wordRefusesWrite (shm + 64) = false ∧
    (regionOf (shm + 64)).isShared = true ∧ (shm + 64) % 64 = 0 ∧ 0 < ((2 : Word) - 1).toInt ∧ ((0 : Word) - 1).toInt < 0 ∧
    (stateLaunch 1).decrementAhead ⟨some (shm + 64), 0⟩ = false ∧ stateAhead.decrementAhead ⟨none, 4⟩ = true ∧
    (stateLaunch 1).up = true ∧ (withTasks []).up = false ∧ (stateReady tcbMem).up = true ∧ ((stateReady tcbMem).tower 2).ready.length < 4096 ∧
    (stateLaunch 1).egressChannel (shm + 64) = none ∧ ((stateLaunch 1).tower 2).ready.length < 4096 ∧ stateEgress.egressChannel (shm + 64) = some 3 ∧
    ((stateReady tcbMem).tower 2).unread notice1 = some ready1 := by
  and_intros <;> first | with_reducible rfl | decide +kernel | nofun

theorem witness_LaunchesAndNotices_full : 4096 ≤ (stateFull.tower 2).ready.length := by
  show 4096 ≤ (List.replicate 4096 (⟨0, 0, 0, 0, none, none, 0, 0, none⟩ : Ready)).length
  exact Nat.le_of_eq List.length_replicate.symm

def tcbWords : List Word := List.replicate 5 0 ++ [1, 0, 0, 0x00200001] ++ List.replicate 119 0

theorem witness_LaunchesAndNotices_tcb : (stateReady tcbMem).readVaWords 0 0x1000 128 = .ok tcbWords ∧ (tcbOf tcbWords 0).isSome ∧
    (stateReady tables).readVaWords 0 0x1000 128 = .ok (List.replicate 128 0) ∧ tcbOf (List.replicate 128 0) 0 = none := by
  refine ⟨?_, by decide +kernel, ?_, by decide +kernel⟩ <;>
    (rw [State.readVaWords, readVa_low _ (by unfold HasTables; decide +kernel) _ _ (by decide)]; exact congrArg Except.ok (by decide +kernel))

/-! Scheduling and starting a task -/

/-- A TCB for one quadrant on hoop 0 of its tower only, and a task that has been read, one at a higher place with less priority. -/
def tcb1 (prio : Nat) : Tcb := { taskM.tcb with prio := prio, hoopaff := 1, mtx := false, block := 0x2000 }
def readyOf (prio seq : Nat) : Ready := ⟨0x1000, 0, 5, seq, some (tcb1 prio), none, 0, 0, none⟩
def towerOf (rs : List Ready) : Tower := { Tower.reset with ready := rs, nextSeq := 9, pren := true }
def stateSched (rs : List Ready) (ts : List Task) : State :=
  { withTasks ts with run := true, bringUp := .running, time := 100000, towers := State.reset.towers.set 0 (towerOf rs) }
/-- The scheduler is held up by the task of place 2, and its first task has waited for so long. -/
def stateHeld : State := { stateSched [] [] with towers := State.reset.towers.set 0 { towerOf [readyOf 0 1, readyOf 2 2] with held := some 2 } }
def stateLong : State := { stateSched [] [] with towers := State.reset.towers.set 0 { towerOf [readyOf 0 1] with holdu := 3 } }
/-- A task that holds hoop 0 whole. -/
def holder0 : Task := { taskM with id := 3, quads := [0, 1, 2, 3] }

theorem witness_TasksPlaced :
    (stateSched [readyOf 0 1, readyOf 2 2] []).up = true ∧ ((stateSched [readyOf 0 1, readyOf 2 2] []).noteHeld 0).nextPlaced 0 = some (readyOf 2 2, 0) ∧
    (readyOf 2 2).checked = some (tcb1 2) ∧ (readyOf 2 2).saved = none ∧ ((stateSched [] []).noteHeld 0).nextPlaced 0 = none ∧
    (withTasks []).up = false ∧ stateHeld.heldReady 0 = some (readyOf 2 2) ∧ stateHeld.nextPlaced 0 = some (readyOf 2 2, 0) ∧
    stateLong.heldReady 0 = none ∧ stateLong.readyOrder 0 = [readyOf 0 1] ∧ (stateLong.tower 0).holdu ≠ 0 ∧
    4096 * (stateLong.tower 0).holdu.toNat ≤ stateLong.waited (readyOf 0 1) ∧ 0 < stateLong.towers.length ∧
    (stateSched [] []).preemptFor 0 = none ∧ (stateSched [readyOf 2 2] [holder0]).preemptFor 0 = some (readyOf 2 2, tcb1 2) ∧
    (stateSched [readyOf 2 2] [holder0]).victimsOn 0 (tcb1 2) 2 = some [holder0] ∧
    (∀ h ∈ hoopsOf 0, h ≠ 0 → (stateSched [readyOf 2 2] [holder0]).victimsOn h (tcb1 2) 2 = none) := by
  and_intros <;> first | with_reducible rfl | decide +kernel | nofun

/-- A block image of one EXIT that ends its task (R81 to R84), and a task at each step of its start. -/
def image1 : Image := (0x2000, [0xB1000002, 0, 0, 0, 0x08000000, 0, 0, 0, 0, 0, 0, 0, 0x98000000, 0, 0, 0])
def imageMem : Memory := ((tables.writeWord (shm + 0x2000) 0xB1000002).writeWord (shm + 0x2010) 0x08000000).writeWord (shm + 0x2030) 0x98000000
def starting (p : Phase) : Task := { taskNew with tcb := tcb1 0, phase := p, nextSeq := 0, reserve := 0, blocks := [], images := [image1], account := 4096 }
def stateStart (p : Phase) : State := { withTasks [starting p] with mem := imageMem }
/-- A page that no table maps, and one that a leaf does not let read. -/
def stateNoPage : State := { stateStart .fetching with mem := [] }
def stateNoRead : State := { stateStart .fetching with mem := [(0, 0x21), (0x10000, 0x41), (0x20000, 0x61), (0x30000, 0x0B), (0x30003, 0x08)] }
def badImage : Task := { starting .checking with images := [(0x2000, [0])] }
/-- Domain 0 of hoop 0 in a meter state, and in schedule mode; a task that holds domains of both modes. -/
def stateMeter (p : Phase) (x : Domain) : State :=
  { stateStart p with hoops := State.reset.hoops.set 0 { Hoop.reset with domains := Hoop.reset.domains.set 0 x } }
def twoModes : Task := { starting .levelling with quads := [0, 1] }
/-- A task that asks for more contexts than its hoop has, and one with so many strokes. -/
def asksMany : Task := { starting .resources with tcb := { tcb1 0 with ctxres := 5000 } }
def stateMany : State := { stateStart .resources with tasks := [asksMany] }
def poorTask (n : Nat) : Task := { starting .levelling with account := n }
def poor (n : Nat) : State := { stateMeter .levelling Domain.reset with tasks := [poorTask n] }
def filling (st : Bool) : State := { stateMeter .levelling { Domain.reset with st := .fill, nseg := 1, owed := 557, vmv := 800 } with
  feedcap := 0, pumpsStalled := st }

theorem witness_TasksStart :
    (stateStart .fetching).task? 1 = some (starting .fetching) ∧ (starting .fetching).nextSeq = 0 ∧
    (stateStart .resources).task? 1 = some (starting .resources) ∧ (starting .resources).reserve = 0 ∧ (starting .resources).barriers = [] ∧
    (starting .resources).tcb.ctxres ≤ (stateStart .resources).unreserved 0 ∧
    (stateStart .resources).barriersHeld 0 + (starting .resources).barrierIds.length ≤ 256 ∧
    (stateStart .resources).portSlotsHeld 0 + (starting .resources).portSlots ≤ 64 ∧ (starting .resources).slots = 0 ∧
    stateMany.task? 1 = some asksMany ∧ stateMany.unreserved 0 < asksMany.tcb.ctxres - asksMany.reserve ∧
    (stateMeter .levelling Domain.reset).task? 1 = some (starting .levelling) ∧ (starting .levelling).schedule = false ∧
    (∀ d ∈ (starting .levelling).domains, ((stateMeter .levelling Domain.reset).domain 0 d).mode = false) ∧ (starting .levelling).domains = [0] ∧
    (starting .levelling).domains.find? (fun d => ((stateMeter .levelling Domain.reset).domain 0 d).st == .idle) = some 0 ∧
    (starting .levelling).saved = none ∧ 420 < (Domain.reset).mv.toNat ∧ 1 ≤ segmentsOf 0 ∧ 1 * 375 * (Domain.reset.mv.toNat - 420) ≤ 4096 * 256 ∧
    512 * 2 ^ 0 ≤ 1 * 375 * (Domain.reset.mv.toNat - 420) ∧
    (poor 200).task? 1 = some (poorTask 200) ∧ 200 * 256 < 375 * (Domain.reset.mv.toNat - 420) ∧ 375 * 80 ≤ 200 * 256 ∧
    (poor 100).task? 1 = some (poorTask 100) ∧ 100 * 256 < 375 * (Domain.reset.mv.toNat - 420) ∧ 100 * 256 < 375 * 80 ∧
    ((starting .levelling).domains.find? fun d => ((stateMeter .levelling { Domain.reset with st := .feed }).domain 0 d).st == .idle) = none ∧
    (∀ d ∈ (starting .levelling).domains, ((stateMeter .levelling { Domain.reset with mode := true }).domain 0 d).mode = true) ∧
    0 ∈ twoModes.domains ∧ 1 ∈ twoModes.domains ∧ ((stateMeter .levelling { Domain.reset with mode := true }).domain 0 1).mode = false ∧
    (∀ d ∈ (starting .levelling).domains, ((stateMeter .levelling { Domain.reset with mode := true }).domain 0 d).st = .idle) ∧
    (∀ d ∈ twoModes.domains, ((stateMeter .levelling { Domain.reset with mode := true }).domain 0 d).st = .idle) ∧
    (filling true).task? 1 = some (starting .levelling) ∧ ((filling true).domain 0 0).st = .fill ∧ (filling true).pumpsStalled = true ∧
    (filling false).pumpsStalled = false ∧ (filling false).feedcap = 0 ∧ ((filling false).domain 0 0).pend = false ∧
    ((filling false).domain 0 0).owed < (starting .levelling).account ∧ (poorTask 200).account ≤ ((filling false).domain 0 0).owed ∧
    (starting .checking).nextSeq = 0 ∧
    (stateStart .checking).task? 1 = some (starting .checking) ∧ (starting .checking).placementFault = none ∧ badImage.placementFault ≠ none := by
  and_intros <;> first | with_reducible rfl | decide +kernel | nofun

theorem witness_TasksStart_fetch : (stateStart .fetching).fetchImage 0 0x2000 = .ok image1 ∧ (stateStart .fetching).number 0 [image1] 0 130 = .ok [image1] ∧
    stateNoPage.fetchImage 0 0x2000 = .error .xlate ∧ stateNoRead.fetchImage 0 0x2000 = .error .prot := by
  refine ⟨?_, by rfl, by rfl, by rfl⟩
  have t : HasTables (stateStart .fetching) page0 := by unfold HasTables; decide +kernel
  have r : ∀ n va, va + 4 * n ≤ 2 ^ 25 → (stateStart .fetching).readVaWords 0 va n =
      .ok ((List.range n).map fun k => BitVec.ofNat 32 (natOfBytes (((imageMem.readBytes (shm + va) (4 * n)).drop (4 * k)).take 4))) :=
    fun n va h => by rw [State.readVaWords, readVa_low _ t _ _ h]; rfl
  rw [State.fetchImage, r 12 0x2000 (by decide)]
  rfl

/-- A task whose pump feeds, one whose account is empty, and a meter in a move. -/
def feeding (st : MeterState) : State :=
  { stateMeter .running { Domain.reset with st := st, nseg := 256, vmv := 800, low := 800, fed := 142500 } with
    tasks := [starting .running], pool := 5, feedcap := 0 }
def topupM : Instr := .topup ext
def movingDomain (goal : BitVec 10) (st : MeterState) (schedule : Bool) : Domain :=
  { Domain.reset with st := st, nseg := 1, moving := some goal, schedule := schedule, vmv := 800, fed := 557 }
def moving (goal : BitVec 10) (st : MeterState) (schedule : Bool) : State := { feeding st with
  hoops := State.reset.hoops.set 0 { Hoop.reset with domains := Hoop.reset.domains.set 0 (movingDomain goal st schedule) } }
def stalled (s : State) : State := { s with pumpsStalled := true }
def capped (s : State) : State := { s with capReached := true }

theorem witness_MetersFeed :
    (feeding .feed).holder 0 0 = some (starting .running) ∧ (feeding .feed).task? 1 = some (starting .running) ∧ ((feeding .feed).domain 0 0).schedule = false ∧
    ((feeding .feed).domain 0 0).st = .feed ∧ (feeding .feed).pumpsStalled = false ∧ ((feeding .feed).domain 0 0).moving = none ∧
    (feeding .feed).feedcap = 0 ∧ (feeding .feed).holdMv 0 0 ≤ ((feeding .feed).domain 0 0).low.toNat ∧ (stalled (feeding .feed)).pumpsStalled = true ∧
    ((moving 700 .feed false).domain 0 0).moving = some 700 ∧ (700 : BitVec 10).toNat < ((moving 700 .feed false).domain 0 0).cur.toNat ∧ 4095 < (starting .running).account ∧ (starting .running).account ≤ 4096 ∧
    ((feeding .drain).domain 0 0).st = .drain ∧ (starting .running).ended = false ∧
    Claims.At (stateOp topupM (word1 .sent)) 1 1 0 .sent (taskOp topupM (word1 .sent)) (opM topupM (word1 .sent)) ∧ (taskOp topupM (word1 .sent)).cause = none ∧
    ((moving 900 .idle false).domain 0 0).moving = some 900 ∧ ((moving 900 .idle false).domain 0 0).pend = false ∧
    ((moving 900 .idle false).domain 0 0).st ≠ .feed ∧ ((moving 900 .feed true).domain 0 0).schedule = true ∧
    (moving 900 .feed false).holder 0 0 = some (starting .running) ∧ ((moving 900 .feed false).domain 0 0).cur.toNat < (900 : BitVec 10).toNat ∧
    (stalled (moving 900 .feed false)).pumpsStalled = true ∧ (capped (moving 900 .feed false)).holdMv 0 0 < (900 : BitVec 10).toNat ∧
    (900 : BitVec 10).toNat ≤ (moving 900 .feed false).holdMv 0 0 ∧ (moving 900 .feed false).feedcap = 0 ∧
    Claims.strokesTo 1 900 - Claims.strokesTo 1 (Claims.highest ((moving 900 .feed false).domain 0 0)) < (starting .running).account := by
  simp only [Claims.At]
  and_intros <;> first | with_reducible rfl | decide +kernel | nofun

/-- Operations at the head of a leave queue. -/
def leaveM : Instr := .leave ext
def copyM : Instr := .copy ext
def stateLeave (i : Instr) (x : Domain) : State :=
  { stateOp i (word1 .queued) with time := 2000, hoops := State.reset.hoops.set 0 { Hoop.reset with domains := Hoop.reset.domains.set 0 x } }
/-- A copy that holds 4 units of leave. -/
def holdsLeave : Task := taskOp copyM { word1 .sent with tick := 4 }
def leaves (step ceil : Nat) : Domain := { Domain.reset with leaves := [(⟨1, 1, 0, 0⟩, step)], ceil := ceil }

def taskAsks : Task := { taskM with streams := [{ readS with leave := 4 }] }

theorem witness_LeaveCeilings :
    ((stateLeave leaveM (leaves 4 4)).domain 0 0).leaves = [(⟨1, 1, 0, 0⟩, 4)] ∧ (stateLeave leaveM (leaves 4 4)).leaveWanted ⟨1, 1, 0, 0⟩ = true ∧
    0 + 4 ≤ (leaves 4 4).ceil ∧ (stateLeave leaveM (leaves 4 4)).op? 1 1 = some (taskOp leaveM (word1 .queued), opM leaveM (word1 .queued)) ∧
    (stateLeave copyM (leaves 4 4)).leaveWanted ⟨1, 1, 0, 0⟩ = true ∧
    (stateLeave copyM (leaves 4 4)).op? 1 1 = some (taskOp copyM (word1 .queued), opM copyM (word1 .queued)) ∧ isCommand copyM = true ∧
    (leaves 5 4).ceil < (leaves 5 4).committed + 5 ∧ (leaves 5 4).ceil < 96 ∧ (Domain.reset).leaves = [] ∧
    Domain.reset.lastStart + 1000 ≤ (stateLeave leaveM Domain.reset).time.toNat ∧ (leaves 4 4).leaves ≠ [] ∧
    (stateLeave leaveM (leaves 4 4)).askingStream ⟨1, 1, 0, 0⟩ = false ∧ (stateLeave leaveM (leaves 4 4)).leaveWanted ⟨9, 1, 0, 0⟩ = false ∧
    (withTasks [holdsLeave]).task? 1 = some holdsLeave ∧ State.masterLeave holdsLeave 0x40000000 = some 4 ∧ bits 0x40000000 31 30 = 1 ∧
    State.masterLeave task1 0x40000000 = some 0 ∧ State.masterLeave task1 0x80000005 = none ∧ bits 0x80000005 31 30 = 2 ∧
    (withTasks [taskAsks]).task? 1 = some taskAsks ∧ State.masterLeave taskAsks 0xC0000000 = some 4 ∧ bits 0xC0000000 31 30 = 3 := by
  and_intros <;> first | with_reducible rfl | decide +kernel | nofun

/-! Control, registers, the end of a task and its pre-emption -/

/-- A word of the system family of task 1, whose base instance it is, beside task 2 on quadrant 0 of hoop 1. -/
def other (p : Phase) (f : Freeze) : Task := { task1 with id := 2, hoop := 1, phase := p, frozen := f }
def sysOp (i : Instr) (a b : Word) : OpRec := opOf i (setAt (.elem 0 0) (some (tok 0 [a])) (some (tok 0 [b])) none) (word1 .ready)
def taskSys (i : Instr) (a b : Word) : Task := { withOp task1 (sysOp i a b) with tcb := { task1.tcb with priv := false } }
def taskPriv (i : Instr) (a b : Word) : Task := { taskSys i a b with tcb := { task1.tcb with priv := true } }
def stateSys (i : Instr) (a b : Word) (u : Task) : State := withTasks [taskSys i a b, u]
def begins (i : Instr) (a b : Word) (u : Task) : Prop :=
  Claims.At (stateSys i a b u) 1 1 0 .ready (taskSys i a b) (sysOp i a b) ∧ (taskSys i a b).isBase ((sysOp i a b).firing.instAt 0) = true ∧
    ∀ w ∈ (sysOp i a b).words.take 0, w.stage ≠ .ready
def statePriv (i : Instr) (a b : Word) : State := withTasks [taskPriv i a b]

theorem witness_SystemWordsPerform :
    begins (.grant ext) 0x100 5 (other .running .none) ∧ quadTarget 0x100 = some (1, 0) ∧
    (stateSys (.grant ext) 0x100 5 (other .running .none)).quadHolder (1, 0) = some (other .running .none) ∧ quadTarget 0x200 = some (2, 0) ∧
    (stateSys (.grant ext) 0x200 5 (other .running .none)).quadHolder (2, 0) = none ∧
    begins (.tack ext) 0 0 (other .running .none) ∧ (taskSys (.tack ext) 0 0).tacking = none ∧ begins (.trap ext) 9 0 (other .running .none) ∧
    begins (.srd ext) 0x20 0 (other .running .none) ∧ regOf 0x20 = some (.time, false) ∧ Reg.taskReadable .time = true ∧
    begins (.srd ext) 0x22 0 (other .running .none) ∧ 0x22 % 4 ≠ 0 ∧ begins (.srd ext) 0x08 0 (other .running .none) ∧
    regOf 0x08 = some (.ctl, false) ∧ Reg.taskReadable .ctl = false ∧ (taskSys (.srd ext) 8 0).tcb.priv = false ∧
    Claims.At (statePriv (.swr ext) 0x28 9) 1 1 0 .ready (taskPriv (.swr ext) 0x28 9) (sysOp (.swr ext) 0x28 9) ∧
    (taskPriv (.swr ext) 0x28 9).isBase ((sysOp (.swr ext) 0x28 9).firing.instAt 0) = true ∧
    ((statePriv (.swr ext) 0x28 9).writeRegWord ⟨0x28, false, 9, false⟩).isSome ∧
    begins (.freeze ext) 0x100 0 (other .running .none) ∧ begins (.freeze ext) 0x100 0 (other .running .byFreeze) ∧ begins (.freeze ext) 0 0 (other .running .none) ∧
    masterOf 0x40000102 = some (.engine 1 2) ∧ masterOf 0x80000005 = some (.node 5) ∧ masterOf 0xC0000000 = none ∧
    begins (.thaw ext) 0x100 0 (other .running .byFreeze) ∧ begins (.thaw ext) 0x100 1 (other .running .byFreeze) ∧
    begins (.preempt ext) 0x100 2 (other .running .none) ∧ begins (.preempt ext) 0x100 0 (other .draining .none) := by
  simp only [begins, Claims.At]
  and_intros <;> first | with_reducible rfl | decide +kernel | nofun

/-- Registers beside their writes: a pinned domain, one that feeds, a busy invalidation, and a package that runs. -/
def stateReg (x : Domain) : State := { withTasks [] with hoops := State.reset.hoops.set 0 { Hoop.reset with domains := Hoop.reset.domains.set 0 x } }

theorem witness_RegistersTakeWrites :
    ((withTasks []).domain 63 4).st = .idle ∧ ((withTasks []).domain 63 4).moving = none ∧ ((stateReg { Domain.reset with st := .feed }).domain 0 0).st = .feed ∧
    ((stateReg { Domain.reset with st := .feed }).domain 0 0).moving = none ∧ ((stateReg { Domain.reset with st := .feed }).domain 0 0).cur ≠ 550 ∧
    ((stateReg { Domain.reset with pin := true }).domain 0 0).pin = true ∧ (withTasks []).tlbBusy = false ∧ { withTasks [] with tlbBusy := true }.tlbBusy = true ∧
    (withTasks []).run = false ∧ (1 : BitVec 64).getLsbD 0 = true ∧ { withTasks [] with run := true }.run = true ∧ ((withTasks []).tower 3).join.en = false := by
  and_intros <;> first | with_reducible rfl | decide +kernel | nofun

/-- Tasks at the end of their lives. -/
def ended (p : Phase) : Task := { task1 with phase := p }
def lock1 : Lock := ⟨3, 5, 1, ⟨0, 0, 0⟩, []⟩
def lineStaged : List Staged := [⟨0, .committed, 1, shm, [1, 2, 3, 4], 0⟩, ⟨0, .committed, 2, shm + 2, [9], 0⟩]
def taskLine : Task := { ended .draining with staged := lineStaged }
def markOp : StagedOp := ⟨0, ⟨0, 0, 0⟩, 2, shm + 8, .write 0x1234 3, some 0⟩
def taskMark : Task := { ended .draining with stagedOps := [markOp], commits := 1 }
def stateMark : State := { withTasks [taskMark] with words := [⟨shm + 8, .deferred, 0, none, 0, [⟨1, 7, 0, 0⟩]⟩] }
def taskRows (owed : Bool) : Task := { ended .tokens with receivers := [⟨5, owed⟩, ⟨0x3FFF, owed⟩], launches := [shm + 64] }

theorem witness_TasksCommit :
    (withTasks [ended .ending]).task? 1 = some (ended .ending) ∧ (ended .ending).frozen = .none ∧ (ended .ending).openStreams = [] ∧
    (ended .ending).tacking = none ∧ (ended .ending).ops = [] ∧ (withTasks [ended .ending]).locks = [] ∧
    { withTasks [ended .ending] with locks := [lock1] }.locks.find? (fun l => l.task == 1) = some lock1 ∧
    (withTasks [taskLine]).task? 1 = some taskLine ∧ (withTasks [taskLine]).mem.wf = true ∧
    (∀ w ∈ lineStaged, w.owner = .committed ∧ shm ≤ w.pa ∧ w.pa + w.bytes.length ≤ shm + 64 ∧ w.bytes ≠ []) ∧
    (∀ k < 16, (withTasks [taskLine]).wordRefusesWrite (shm + 4 * k) = false) ∧ (∀ w ∈ lineStaged, (withTasks [taskLine]).lineGood shm w.key = true) ∧
    stateMark.task? 1 = some taskMark ∧ taskMark.staged = [] ∧ markOp.order.any (fun k => decide (k < taskMark.commits)) = true ∧
    (withTasks [ended .draining]).task? 1 = some (ended .draining) ∧ (ended .draining).staged = [] ∧ (ended .draining).stagedOps = [] ∧
    (withTasks [taskRows true]).task? 1 = some (taskRows true) ∧ (∃ r ∈ (taskRows true).receivers, r.owed = true) ∧
    (withTasks [taskRows false]).task? 1 = some (taskRows false) ∧ (∀ r ∈ (taskRows false).receivers, r.owed = false) := by
  and_intros <;> first | with_reducible rfl | decide +kernel | nofun

def cause1 (code : BitVec 8) : Cause := ⟨code, 1, 2, 3, 4, 5, 6, 7⟩
def gone (p : Phase) (f : Freeze) : Task := { ended p with cause := some (cause1 F_ILL), frozen := f, receivers := [⟨5, false⟩], staged := lineStaged }
def goneOp : Task := { gone .aborting .none with ops := [opOf (.srd ext) (setAt (.elem 0 0) none none none) (word1 .sent)] }
def queueOf (full : Bool) : Tower := { Tower.reset with fq := { Tower.reset.fq with base := 0x1000, head := 0, tail := if full then 1 <<< Tower.reset.fq.logn.toNat else 3 } }
def stateQ1 (full : Bool) : State := { withTasks [] with towers := State.reset.towers.set 1 (queueOf full) }
def record1 (waited : Bool) : FaultRecord := ⟨F_ILL, 1, 2, 3, 4, 5, 6, 7, 8, 9, 10, 11, 12, 13, waited⟩

theorem witness_TasksAbort :
    (withTasks [gone .aborting .none]).task? 1 = some (gone .aborting .none) ∧ (gone .aborting .none).tacking = none ∧ (gone .aborting .none).ops = [] ∧
    (gone .aborting .none).waiting = [] ∧ (gone .aborting .none).stagedOps = [] ∧ (withTasks [goneOp]).task? 1 = some goneOp ∧ goneOp.ops ≠ [] ∧
    (withTasks [gone .parking .none]).task? 1 = some (gone .parking .none) ∧ (∀ r ∈ (gone .parking .none).receivers, r.owed = false) ∧ F_ILL ≠ F_PREEMPT ∧
    F_ILL ≠ F_SHORT ∧ (withTasks [gone .recording .none]).recordPending (gone .recording .none) = false ∧
    (withTasks [gone .recording .byViolation]).recordPending (gone .recording .byViolation) = false ∧
    ((stateQ1 false).tower 1).fq.full = false ∧ (∀ i < 16, (stateQ1 false).wordRefusesWrite (0x1000 + 64 * 3 + 4 * i) = false) ∧
    1 < (stateQ1 false).towers.length ∧ ((stateQ1 true).tower 1).fq.full = true := by
  and_intros <;> first | with_reducible rfl | decide +kernel | nofun

/-! Pre-emption and exceptions. A large page of scratchpad takes the save area, wherever the free values put its lines. -/

def pageS : BitVec 64 := 0x820000F
def scr : Nat := 0x4100000000

theorem readBytes_far (m : Memory) (a b n : Nat) (bs : List Byte) (h : b + n ≤ a) : (m.writeBytes a bs).readBytes b n = m.readBytes b n := by
  induction n generalizing b with
  | zero => rfl
  | succ n ih => simp only [Memory.readBytes]; rw [Memory.read_writeBytes_other _ _ _ _ (.inl (by omega)), ih (b + 1) (by omega)]

theorem keepTables (s s' : State) (a : Nat) (bs : List Byte) (t : HasTables s pageS) (r : s.rootBase = 0) (h : scr ≤ a)
    (m : s'.mem = s.mem.writeBytes a bs) (e : s'.asbase = s.asbase) : HasTables s' pageS ∧ s'.rootBase = 0 := by
  have k : ∀ x, x ≤ 2 ^ 30 → s'.readEntry x = s.readEntry x := fun x hx => by
    simp only [State.readEntry, m]
    rw [readBytes_far _ _ _ _ _ (by simp only [scr] at h; omega)]
  have r' : s'.rootBase = 0 := by rw [← r]; simp only [State.rootBase, e]
  obtain ⟨l0, l1, l2, l3⟩ := t
  rw [r] at l0
  refine ⟨⟨?_, ?_, ?_, ?_⟩, r'⟩
  · rw [r', k _ (by decide +kernel)]; exact l0
  · rw [k _ (by decide +kernel)]; exact l1
  · rw [k _ (by decide +kernel)]; exact l2
  · rw [k _ (by decide +kernel)]; exact l3

theorem plainWrite_scr (s : State) (a : Nat) (bs : List Byte) (t : HasTables s pageS) (r : s.rootBase = 0) (h : scr ≤ a) (h2 : a < scr + 2 ^ 25) :
    HasTables (s.plainWrite a bs 0 partWriter) pageS ∧ (s.plainWrite a bs 0 partWriter).rootBase = 0 := by
  have g : (regionOf a).structured = false := by
    simp only [scr] at h h2
    simp only [regionOf]
    rw [if_neg (by omega), if_neg (by omega), if_neg (by omega), if_pos (by omega)]
    rfl
  simp only [State.plainWrite, g]
  refine keepTables s _ a bs t r h ?_ ?_
  · simp only [Bool.false_eq_true, if_false]
  · simp only [Bool.false_eq_true, if_false]; split <;> rfl

theorem lines_scr (f : Nat → List Byte) (va : Nat) (h : va + 256 ≤ 2 ^ 25) (ds : List Nat) (u : State) (hd : ∀ d ∈ ds, d < 256)
    (t : HasTables u pageS) (r : u.rootBase = 0) :
    HasTables (ds.foldl (fun q d => q.plainWrite (scr + va + d) (f d) 0 partWriter) u) pageS ∧
      (ds.foldl (fun q d => q.plainWrite (scr + va + d) (f d) 0 partWriter) u).rootBase = 0 := by
  induction ds generalizing u with
  | nil => exact ⟨t, r⟩
  | cons d ds ih =>
    have hd0 := hd d (List.mem_cons_self ..)
    obtain ⟨a, b⟩ := plainWrite_scr u (scr + va + d) (f d) t r (by omega) (by omega)
    exact ih _ (fun x hx => hd x (List.mem_cons_of_mem _ hx)) a b

theorem writeHidden_scr (s : State) (va : Nat) (t : HasTables s pageS) (r : s.rootBase = 0) (h : va + 256 ≤ 2 ^ 25) :
    ∃ s', s.writeHidden 0 0 va = .ok s' ∧ HasTables s' pageS ∧ s'.rootBase = 0 := by
  have p : leafPermits pageS true 0 = true ∧ entryHost pageS = false ∧ entryAddr pageS = scr := by decide +kernel
  have tr : s.translate 0 va true (some 0) = .ok (scr + va) := by
    simp only [State.translate, walk_low s pageS t (by unfold LargeLeaf; decide +kernel) va (by omega), Option.getD_some, p.1, if_true, leafPa,
      beq_self_eq_true, p.2, Bool.false_eq_true, if_false]
    rw [Nat.mod_eq_of_lt (by omega)]
  have l := lines_scr (fun d => (List.range 64).map fun k => Config.savedByte s.fresh (d + k)) va h [0, 64, 128, 192] s (by decide) t r
  unfold State.writeHidden
  rw [tr]
  dsimp only
  generalize List.foldl _ s [0, 64, 128, 192] = v at l ⊢
  exact ⟨v.freshen, rfl, l⟩

theorem saveArea_scr (s : State) (t : Task) (h : HasTables s pageS) (r : s.rootBase = 0) (e : t.tcb.asid = 0 ∧ t.tcb.key = 0 ∧ t.tcb.save = 0 ∧ t.tcb.qcnt = 1) :
    ∃ s', s.writeSaveArea t = .ok s' := by
  obtain ⟨e1, e2, e3, e4⟩ := e
  simp only [State.writeSaveArea, e1, e2, e3, e4]
  have go : ∀ (ks : List Nat) (u : State), (∀ k ∈ ks, k < 21504) → HasTables u pageS → u.rootBase = 0 → ∃ v, ks.foldl (fun q k => match q with
      | .error e => .error e
      | .ok s1 => if k = 0 || Config.savesChunk s.fresh k then s1.writeHidden 0 0 (0 + 256 * k) else .ok s1) (Except.ok u : Except (BitVec 8) State) = .ok v := by
    intro ks
    induction ks with
    | nil => exact fun u _ _ _ => ⟨u, rfl⟩
    | cons k ks ih =>
      intro u hk a b
      have hk0 := hk k (List.mem_cons_self ..)
      simp only [List.foldl_cons]
      split
      · obtain ⟨v, hv, a', b'⟩ := writeHidden_scr u (0 + 256 * k) a b (by omega)
        rw [hv]
        exact ih v (fun x hx => hk x (List.mem_cons_of_mem _ hx)) a' b'
      · exact ih u (fun x hx => hk x (List.mem_cons_of_mem _ hx)) a b
  exact go _ s (fun k hk => by simpa using hk) h r

/-- A task that may be saved, one that holds a lock, one that is halting with its save area at 0, and one that comes back with a context. -/
def taskSaves : Task := { task1 with tcb := { task1.tcb with mtx := false, save := 0, key := 0, asid := 0, qcnt := 1 } }
def taskHalt : Task := { taskSaves with phase := .halting }
def scrTables : Memory := [(0, 0x21), (0x10000, 0x41), (0x20000, 0x61), (0x30000, 0x0F), (0x30002, 0x20), (0x30003, 0x08)]
def stateHalt : State := { withTasks [taskHalt] with mem := scrTables }
def haltOp : OpRec := opOf (.ld (seg 2) .half true) (setM 8 9) (word1 .sent)
def taskBack (ended : Bool) : Task := { taskSaves with
  phase := .starting, contexts := [], ended := ended, saved := some ⟨[0], [700], [ctx1], [bar 3], []⟩ }
def halted : State := ((stateHalt.withdrawWaits 1).withdrawReaders 1).takeBankFlags taskHalt |>.2

theorem witness_TasksPreempted :
    (withTasks [taskSaves]).task? 1 = some taskSaves ∧ taskSaves.phase = .running ∧ taskSaves.schedule = false ∧ (withTasks [taskSaves]).saveAborts taskSaves = false ∧
    (withTasks [task1]).saveAborts task1 = true ∧ (withTasks [ended .draining]).task? 1 = some (ended .draining) ∧ (ended .draining).phase = .draining ∧
    ({ taskHalt with ops := [haltOp] }).quiet? = false ∧ stateHalt.task? 1 = some taskHalt ∧ taskHalt.quiet? = true ∧ stateHalt.works = [] ∧ stateHalt.locks = [] ∧ taskHalt.stagedOps = [] ∧
    0 < stateHalt.towers.length ∧ (withTasks [taskBack false]).task? 1 = some (taskBack false) ∧ (taskBack false).contexts = [] ∧ (taskBack false).ops = [] ∧
    (taskBack false).stagedOps = [] ∧ (taskBack false).streams = [] ∧ ((withTasks [taskBack false]).circuits.filter fun c => c.source == 0).length ≤ 16 ∧
    ((withTasks [taskBack false]).freshContexts 1 [ctx1]).isSome := by
  and_intros <;> first | with_reducible rfl | decide +kernel | nofun

theorem witness_TasksPreempted_save : ∃ fl s3 s4, ((stateHalt.withdrawWaits 1).withdrawReaders 1).takeBankFlags taskHalt = (fl, s3) ∧
    State.writeSaveArea (State.withTask s3 1 fun u => { u with flags := u.flags ||| fl }) taskHalt = .ok s4 := by
  obtain ⟨s4, h⟩ := saveArea_scr (halted.withTask 1 fun u => { u with flags := u.flags ||| 0 }) taskHalt
    ⟨by decide +kernel, by decide +kernel, by decide +kernel, by decide +kernel⟩ (by decide +kernel) ⟨rfl, rfl, rfl, rfl⟩
  exact ⟨0, halted, s4, Prod.ext (by decide +kernel) rfl, h⟩

/-- A fault of a running task, one that is a violation, and tasks that already have a cause. -/
def aborting (code : BitVec 8) (tick : BitVec 64) : Task := { task1 with phase := .aborting, cause := some ⟨code, 0, 0, 0, 0, 0, 0, tick⟩ }

theorem witness_ExceptionsTaken :
    (withTasks [task1]).task? 1 = some task1 ∧ (cause1 F_ILL).freezes (withTasks [task1]).node .running = false ∧
    (cause1 F_PROT).freezes (withTasks [task1]).node .running = true ∧ task1.schedule = false ∧ (withTasks [ended .tokens]).task? 1 = some (ended .tokens) ∧
    (withTasks [aborting F_ILL 4]).task? 1 = some (aborting F_ILL 4) ∧ (4 : BitVec 64) ≠ (withTasks [aborting F_ILL 4]).time ∧
    (withTasks [aborting F_PROT 5]).task? 1 = some (aborting F_PROT 5) ∧ (withTasks [aborting F_PROT 5]).time = 5 ∧ F_PROT ≠ F_PREEMPT ∧
    (cause1 F_ILL).code.toNat < F_PROT.toNat ∧ (withTasks [aborting F_PREEMPT 5]).task? 1 = some (aborting F_PREEMPT 5) := by
  and_intros <;> first | with_reducible rfl | decide +kernel | nofun

/-! The matrix array -/

def mset (b c : Word) : Firing := setAt (.elem 0 0) (some (tok 0 [1])) (some (tok 0 [b])) (some (tok 0 [c]))
def stateFire (b c : Word) : State := cached (atSet (mset b c) taskM)
/-- An operation on slots 3 and 4, alone in issue order, and the slots of hoop 0. -/
def matrixOp (i : Instr) (st : OpStage) (b c : Word) (data : List Word) : OpRec := opOf i (mset b c) { word1 st with data := data }
def taskMx (i : Instr) (st : OpStage) (b c : Word) (data : List Word) : Task := withOp taskM (matrixOp i st b c data)
def slots34 (x y : Slot) : List Slot := (Hoop.reset.slots.set 3 x).set 4 y
def stateMx (t : Task) (x y : Slot) : State :=
  { withTasks [t] with mem := tables, hoops := State.reset.hoops.set 0 { Hoop.reset with slots := slots34 x y, tlb := [⟨none, 0, 0, page0, true⟩] } }
def ready2 : Slot := ⟨.ready, 2, 1⟩
def held2 : Slot := ⟨.held, 0, 0⟩
def free0 : Slot := ⟨.free, 0, 0⟩
def litF (l : Word) : StdForm := { std with la := true, lit := l }
def region11 : Word := 0
def region22 : Word := 0x00000000 ||| (1 <<< 18) ||| (1 <<< 4)

theorem witness_MatrixSetsFire :
    Claims.Opens (stateFire 3 4) (mset 3 4) taskM ∧ performs (.mma (litF 0)) (mset 3 4) 0 = true ∧
    Claims.matrixRule (.mma (litF 0)) (mset 3 4) = some ([3, 4], none) ∧ ([(3 : Word), 63].all fun w => decide (w.toNat ≤ 63)) = true ∧
    Claims.Opens (stateFire 3 64) (mset 3 64) taskM ∧ [(3 : Word), 64].find? (fun w => decide (63 < w.toNat)) = some 64 ∧
    Claims.matrixRule (.accRead (litF 1)) (mset region22 0) = some ([], some true) ∧ regionOk region22 true = true ∧
    Claims.Opens (stateFire region22 0) (mset region22 0) taskM ∧ Claims.Opens (stateFire 1 0) (mset 1 0) taskM ∧ regionOk 1 true = false ∧
    Claims.matrixAtMemory (.oploadDense (litF 2)) = true ∧ Claims.matrixAtMemory (.mma (litF 0)) = false := by
  simp only [Claims.Opens, Claims.Fires]
  and_intros <;> first | with_reducible rfl | decide +kernel | nofun

/-- The sixty-four words of a line of 128 BF16 codes, and the open load of a sparse tile in slot 3. -/
def dense1 : StdForm := litF 0x200
def lineWords : List Word := (List.range 64).map fun k => BitVec.ofNat 32 (k + 0x3F800000)
def taskSparse : Task := { taskMx (.oploadSparse (litF 0x201)) .sent 3 0 [] with sparse := some 1 }
def coordinate (fmt : BitVec 3) (w : Word) : Flight := ⟨1, .elem 0 0, .elem 0 0, 0, ⟨{ tag0 with fmt := fmt, port := 2 }, [w]⟩, none, none⟩

theorem witness_SlotsLoad :
    Claims.At (stateMx (taskMx (.oslotClaim (litF 5)) .ready 3 0 []) free0 free0) 1 1 0 .ready (taskMx (.oslotClaim (litF 5)) .ready 3 0 [])
      (matrixOp (.oslotClaim (litF 5)) .ready 3 0 []) ∧
    Claims.Foremost (taskMx (.oslotClaim (litF 5)) .ready 3 0 []) (matrixOp (.oslotClaim (litF 5)) .ready 3 0 []) 0 ∧
    ((stateMx (taskMx (.oslotClaim (litF 5)) .ready 3 0 []) free0 free0).slot 0 0).st = .free ∧ 0 < Hoop.reset.slots.length ∧
    Claims.Foremost (taskMx (.oslotRelease (litF 6)) .ready 3 0 []) (matrixOp (.oslotRelease (litF 6)) .ready 3 0 []) 0 ∧
    ((stateMx (taskMx (.oslotRelease (litF 6)) .ready 3 0 []) ready2 free0).slot 0 3).st ≠ .free ∧
    Claims.Foremost (taskMx (.oploadSparse (litF 0x201)) .ready 3 0 []) (matrixOp (.oploadSparse (litF 0x201)) .ready 3 0 []) 0 ∧
    (taskMx (.oploadSparse (litF 0x201)) .ready 3 0 []).sparse = none ∧ (taskMx (.oploadSparse (litF 0x201)) .ready 3 0 []).waiting = [] ∧
    Claims.At (stateMx (taskMx (.oploadDense dense1) .sent 0 3 lineWords) ⟨.loading, 2, 0⟩ free0) 1 1 0 .sent (taskMx (.oploadDense dense1) .sent 0 3 lineWords)
      (matrixOp (.oploadDense dense1) .sent 0 3 lineWords) ∧
    (stateMx taskSparse ⟨.loading, 2, 0⟩ free0).mem.wf = true ∧ lineWords.length = (matrixSpan (.oploadDense dense1) (mset 0 3) 0).length ∧
    (stateMx taskSparse ⟨.loading, 2, 0⟩ free0).task? 1 = some taskSparse ∧ (taskSparse.context? 0).isSome ∧
    taskSparse.takesCoordinates (coordinate 0 0x3F803FFF) = some (matrixOp (.oploadSparse (litF 0x201)) .sent 3 0 [], 0) ∧ bits 0x3F803FFF 15 14 = 0 ∧
    taskSparse.takesCoordinates (coordinate 7 2) = some (matrixOp (.oploadSparse (litF 0x201)) .sent 3 0 [], 0) := by
  simp only [Claims.At, Claims.Foremost]
  and_intros <;> first | with_reducible rfl | decide +kernel | nofun

/-- Slots that are ready for an MMA of BF16, its words at each stage, and an image in shared memory. -/
def mmaF : StdForm := litF 0x010
def accStF (l : Word) : StdForm := litF (0x200 + l)
def stateMma (st : OpStage) (data : List Word) (x y : Slot) : State := stateMx (taskMx (.mma mmaF) st 3 4 data) x y
def stateAcc (i : Instr) (b : Word) (data : List Word) : State := stateMx (taskMx i .ready b 0 data) free0 free0

theorem witness_AccumulatorsChange :
    8 * 15 < 128 ∧ Claims.At (stateMma .ready [] ready2 ready2) 1 1 0 .ready (taskMx (.mma mmaF) .ready 3 4 []) (matrixOp (.mma mmaF) .ready 3 4 []) ∧
    Claims.Foremost (taskMx (.mma mmaF) .ready 3 4 []) (matrixOp (.mma mmaF) .ready 3 4 []) 0 ∧ ready2.fmt = BitVec.ofNat 3 (2 + formOf mmaF.lit) ∧
    ((stateMma .ready [] held2 ready2).slot 0 3).fmt ≠ BitVec.ofNat 3 (2 + formOf mmaF.lit) ∧ ((stateMma .ready [] free0 ready2).slot 0 3).st = .free ∧
    Claims.At (stateMma .sent [] ready2 ready2) 1 1 0 .sent (taskMx (.mma mmaF) .sent 3 4 []) (matrixOp (.mma mmaF) .sent 3 4 []) ∧
    Claims.At (stateMma .sent [1] ready2 ready2) 1 1 0 .sent (taskMx (.mma mmaF) .sent 3 4 [1]) (matrixOp (.mma mmaF) .sent 3 4 [1]) ∧
    (∀ x ∈ (taskMx (.mma mmaF) .sent 3 4 [1]).matrixWords, ((matrixOp (.mma mmaF) .sent 3 4 [1]).at 0).pending ≤ x.2.2) ∧
    Claims.At (stateAcc (.accRead (litF 0x11)) region22 []) 1 1 0 .ready (taskMx (.accRead (litF 0x11)) .ready region22 0 [])
      (matrixOp (.accRead (litF 0x11)) .ready region22 0 []) ∧
    Claims.Foremost (taskMx (.accRead (litF 0x11)) .ready region22 0 []) (matrixOp (.accRead (litF 0x11)) .ready region22 0 []) 0 ∧
    (∀ x ∈ (taskMx (.accPeek (litF 0x12)) .ready region22 0 []).matrixWords, x.1.isMma = false) ∧
    ((match (stateAcc (.accStore (accStF 0x14)) region11 []).imageAddrs (taskMx (.accStore (accStF 0x14)) .ready region11 0 []) 2 0 true
      (matrixSpan (.accStore (accStF 0x14)) (mset region11 0) 0) with | .ok _ pas _ => pas | .fault .. => []) = [shm]) ∧
    (taskMx (.accStore (accStF 0x14)) .ready region11 0 []).stagingUsed 0 + 1 ≤ 2048 := by
  simp only [Claims.At, Claims.Foremost]
  and_intros <;> first | with_reducible rfl | decide +kernel | nofun

/-! Engines, their messages, host channels and links -/

/-- A command at the port: its control word, its descriptor's offset or window, and memory with a descriptor at 64. -/
def portOp (i : Instr) (a b : Word) (st : OpStage) (data : List Word) : OpRec :=
  opOf i (setAt (.elem 0 0) (some (tok 0 [a])) (some (tok 0 [b])) none) { word1 st with data := data }
def taskPort (i : Instr) (a b : Word) (st : OpStage) (data : List Word) : Task := withOp taskM (portOp i a b st data)
def words64 (ws : List Word) : Memory := (ws.zipIdx.foldl (fun m x => m.writeWord (shm + 64 + 4 * x.2) x.1) tables : Memory)
def statePort (t : Task) (ws : List Word) : State := { cached (withTasks [t]) with mem := words64 ws }
def copyWords : List Word := [0x22000000, 0x100, 0x200, 4, 0, 0, 0, 0]
def reduceWords : List Word := [0x22200000, 0x100, 0x200, 64, 0x80, 0, 0, 0]
def groupWords : List Word := List.replicate 8 0 ++ [1, 9, 0x3FFF, 0x3FFF]
def taskCopy : Task := taskPort (.copy ext) 0x20 64 .ready []
def taskReduce : Task := taskPort (.allreduce ext) 0x20 64 .ready []
def stateReduce : State := statePort taskReduce (reduceWords ++ groupWords)
def taskLw (i : Instr) (a : Word) : Task := taskPort i a 5 .ready []
def window5 (atomic : Bool) : LandWindow := ⟨5, atomic, 0, 0xFFFFF, 0, 0⟩
def stateLw (t : Task) (ws : List LandWindow) (xs : List WordState) : State := { statePort t [] with landWindows := ws, words := xs }
def prov8 (m : Sender) : WordState := ⟨shm + 8, .provisional, 0, some (.remote m), 0x77, []⟩
def setPort : Firing := setM 0x20 64
def firstOf {α β : Type} (r : Except State (α × β)) : Option α := match r with
  | .ok x => some x.1
  | .error _ => none

theorem witness_EngineCommandsDepart :
    Claims.toPort (.copy ext) = true ∧ Claims.Opens (cached (atSet setPort taskM)) setPort taskM ∧ performs (.copy ext) setPort 0 = true ∧
    Claims.At (statePort taskCopy copyWords) 1 1 0 .ready taskCopy (portOp (.copy ext) 0x20 64 .ready []) ∧ taskCopy.isBase ((portOp (.copy ext) 0x20 64 .ready []).firing.instAt 0) = true ∧
    (statePort taskCopy copyWords).portUsed 0 < 32 ∧ Claims.servedBy (.copy ext) = some 0 ∧ isColl (.copy ext) = false ∧ engCtlOk 0x20 = true ∧
    firstOf ((statePort taskCopy copyWords).descriptorReads taskCopy (portOp (.copy ext) 0x20 64 .ready []).firing 2 none (wordOffsets 64 8)) = some copyWords ∧
    commandBytes (.copy ext) copyWords = some 4 ∧ isColl (.allreduce ext) = true ∧ engReservedOk 0x20 = true ∧
    firstOf (stateReduce.descriptorReads taskReduce (portOp (.allreduce ext) 0x20 64 .ready []).firing 2 none (wordOffsets 64 8)) = some reduceWords ∧
    (collectiveOf (.allreduce ext) reduceWords).isSome ∧ engCtlOk 0x21 = false ∧ engReservedOk 0x120 = false ∧
    lwopenCtlOk 0x60 = true ∧ (taskM.segment (lwSeg 0x60)).typ = 6 ∧ (taskM.segment (lwSeg 0x60)).w = true ∧
    (stateLw (taskLw (.lwopen ext) 0x60) [] []).window? 5 = none ∧ (stateLw (taskLw (.lwopen ext) 0x60) [window5 false] []).window? 5 = some (window5 false) ∧
    (window5 false).asid = taskM.tcb.asid ∧ (stateLw (taskLw (.lwclose ext) 5) [window5 false] []).windowProvisional (window5 false) = [] ∧
    (stateLw (taskLw (.lwclose ext) 5) [window5 false] [prov8 ⟨5, 1⟩]).windowProvisional (window5 false) ≠ [] := by
  simp only [Claims.Opens, Claims.Fires, Claims.At]
  and_intros <;> first | with_reducible rfl | decide +kernel | nofun

/-- Engine 0 of tower 0 with one command in its queue; and a copy that writes its only word, or one line of two. -/
def ask1 : Reader := ⟨1, 1, 0, 0⟩
def stateQueue1 (i : Instr) (e : Nat) (d : List Word) : State := (statePort (taskPort i 0x20 64 .queued d) []).withEngine 0 e fun x => { x with queue := [ask1] }
def rowsWords : List Word := [0x20010005, 0x100, 8, 0, 0, 0, 0, 0, 0x3FFF0007, 0, 0, 0, 0, 0, 0, 0]
def atomicWords (node : Word) : List Word := [(node <<< 14) ||| 5, 8, 1, 0]
def copyData (n : Nat) : List Word := [0x22000000, 0x100, 0x200, BitVec.ofNat 32 (4 * n), 0, 0, 0, 0] ++ (List.range n).map (BitVec.ofNat 32)
def taskMove (n : Nat) : Task := taskPort (.copy ext) 0x20 64 .sent (copyData n)
def lands (s : State) (t : Task) (m : Moves) (n : Nat) : Bool := (List.range n).all fun k =>
  decide (s.checkAccess t none memoryTypes ⟨m.dseg, (m.place [] k).2, 4, true, false, 0⟩ = .ok (shm + 0x200 + 4 * k) 0) && !s.wordRefusesWrite (shm + 0x200 + 4 * k)
def moveOf (n : Nat) : Moves := ⟨.copy 0 0, 2, 2, 0x100, 0x200, n, 1⟩
def moveWork (n : Nat) : EngineWork := ⟨1, 1, 0, List.range n, [], [], false, []⟩
def stateMove (n : Nat) : State := { statePort (taskMove n) [] with works := [moveWork n] }
def tailLine : OutLine := ⟨0, [(shm + 0x240, 16)], false, none⟩
def movedWork (l : List OutLine) : EngineWork := ⟨1, 1, 0, [], [], l, false, []⟩
def stateMoved (l : List OutLine) : State := { statePort (taskMove 17) [] with works := [movedWork l] }
/-- A collective whose group stands behind its descriptor. -/
def groupRead : List Word := [1, 9, 0x3FFF, 0x3FFF]
def taskGroup : Task := taskPort (.allreduce ext) 0x20 64 .queued reduceWords
def stateGroup : State := (statePort taskGroup (reduceWords ++ groupWords)).withEngine 0 2 fun x => { x with queue := [ask1] }

theorem witness_EngineCommandsRun :
    ((stateQueue1 (.copy ext) 0 copyWords).engine 0 0).frozen = .none ∧ ((stateQueue1 (.copy ext) 0 copyWords).engine 0 0).running = [] ∧
    ((stateQueue1 (.copy ext) 0 copyWords).engine 0 0).queue = [ask1] ∧
    (stateQueue1 (.copy ext) 0 copyWords).nextCommand ((stateQueue1 (.copy ext) 0 copyWords).engine 0 0) = some (0, ask1) ∧
    (stateQueue1 (.copy ext) 0 copyWords).op? 1 1 = some (taskPort (.copy ext) 0x20 64 .queued copyWords, portOp (.copy ext) 0x20 64 .queued copyWords) ∧
    movesOf (.copy ext) copyWords = some (moveOf 1) ∧ taskM.moveRange (moveOf 1) = none ∧ (movesOf (.gather ext) [0x22202000, 0, 0, 0, 0, 0, 0, 0]).isSome ∧
    (firstOf ((stateQueue1 (.copy ext) 0 copyWords).engineReads taskM (setM 0x20 64) 2 memoryTypes [] [0x100])).isSome ∧
    (stateQueue1 (.rematom ext) 2 (atomicWords 7)).nextCommand ((stateQueue1 (.rematom ext) 2 (atomicWords 7)).engine 0 2) = some (0, ask1) ∧
    atomicOf (atomicWords 7) = some (.aadd, 7, 5, 8, 1, 0) ∧ atomicOf (atomicWords 0x3FFF) = some (.aadd, 0x3FFF, 5, 8, 1, 0) ∧
    rowsOf rowsWords = some ⟨2, [7, 0x3FFF], 5, 0x100, 2, 0⟩ ∧ (collectiveOf (.allreduce ext) reduceWords).isSome ∧
    (firstOf ((stateQueue1 (.allreduce ext) 2 reduceWords).engineReads taskM (setM 0x20 64) 2 [1, 2, 3] [] (wordOffsets 0x100 16))).isSome ∧
    ((collectiveOf (.allreduce ext) reduceWords).bind fun c => firstOf (stateGroup.readGroup taskGroup (setM 0x20 64) c)) = some groupRead ∧
    groupOf groupRead = some ⟨0, 9, [0x3FFF, 0x3FFF]⟩ ∧ groupOf [0] = none ∧
    ((collectiveOf (.allreduce ext) reduceWords).map fun c => taskGroup.collectiveOk 0x3FFF c ⟨0, 9, [0x3FFF, 0x3FFF]⟩) = some true ∧
    ((collectiveOf (.allreduce ext) reduceWords).map fun c => taskGroup.collectiveOk 0x3FFF c ⟨0, 9, [7, 0x3FFF]⟩) = some false ∧
    Claims.At (stateMove 1) 1 1 0 .sent (taskMove 1) (portOp (.copy ext) 0x20 64 .sent (copyData 1)) ∧ engineOf (.copy ext) = some 0 ∧
    movesOf (.copy ext) (copyData 1) = some (moveOf 1) ∧ movesOf (.copy ext) (copyData 17) = some (moveOf 17) ∧ (stateMove 1).choices = [] ∧ (stateMove 1).work? 1 1 0 = some (moveWork 1) ∧ (moveWork 17).bad = [] ∧
    (stateMove 1).mem.wf = true ∧ (stateMove 17).lineGood (shm + 0x200) 0 = true ∧
    lands (stateMove 1) (taskMove 1) (moveOf 1) 1 = true ∧ lands (stateMove 17) (taskMove 17) (moveOf 17) 17 = true ∧
    (stateMoved [tailLine]).work? 1 1 0 = some (movedWork [tailLine]) ∧ (stateMoved []).work? 1 1 0 = some (movedWork []) := by
  simp only [Claims.At]
  and_intros <;> first | with_reducible rfl | decide +kernel | nofun

/-- A package that runs as node 1 and hears node 5, with a window, a word that node 5 marked, and members of a collective. -/
def stateNode (ts : List Task) (ws : List LandWindow) (xs : List WordState) : State :=
  { withTasks ts with mem := tables, run := true, bringUp := .running, node := 1, landWindows := ws, words := xs }
def row5 (off : Nat) (n : Nat) : Row := ⟨⟨5, 3⟩, 1, 0, 0, 1, 5, off, List.replicate n 9, true⟩
def taskRem (p : Nat) (st : OpStage) (i : Instr) (d : List Word) : Task := withOp taskM (opOf i (setM 0x20 64) { word1 st with pending := p, data := d })
def atomic5 : RemoteAtomic := ⟨⟨5, 3⟩, 1, 0, 0, 1, 5, 8, .aadd, 1, 0⟩
def member (node : BitVec 14) (task rank form : Nat) : Contribution := ⟨⟨node, task⟩, 1, 0, 9, 0, rank, 2, form, 0, 0, 64, 0, List.replicate 16 (BitVec.ofNat 32 rank), false, true⟩
def gatherWords : List Word := [0x22200000, 0x100, 0x200, 64, 0x80, 0, 0, 0]
def stateColl : State := { stateNode [taskRem 0 .queued (.allgather ext) gatherWords] [] [] with collectives := [member 5 3 0 1] }

theorem witness_EngineMessagesTaken :
    (stateNode [] [window5 false] []).nodeHeld 5 = false ∧ (stateNode [] [] []).window? 5 = none ∧ (stateNode [] [window5 true] []).window? 5 = some (window5 true) ∧
    (window5 false).limit < 0xFFFFC + 4 * 2 - 1 ∧ 0xFFFFC + 4 * 1 - 1 ≤ (window5 false).limit ∧ (window5 false).asid = (row5 8 2).asid ∧
    ((match (stateNode [] [window5 false] []).rowAddrs (window5 false) 8 2 with | .ok p => p | .error _ => []) = [shm + 8, shm + 12]) ∧
    (stateNode [] [window5 false] [prov8 ⟨6, 1⟩]).wordTaken (.remote ⟨5, 3⟩) (shm + 8) = true ∧
    (stateNode [] [window5 false] []).wordTaken (.remote ⟨5, 3⟩) (shm + 8) = false ∧
    Claims.At (stateNode [taskRem 2 .sent (.remwr ext) []] [] []) 1 1 0 .sent (taskRem 2 .sent (.remwr ext) []) (opOf (.remwr ext) (setM 0x20 64) { word1 .sent with pending := 2 }) ∧
    (taskRem 2 .sent (.remwr ext) []).cause = none ∧ (5 : BitVec 14) ≠ (stateNode [] [] []).node ∧
    Claims.At (stateNode [taskRem 1 .sent (.remwr ext) []] [] []) 1 1 0 .sent (taskRem 1 .sent (.remwr ext) []) (opOf (.remwr ext) (setM 0x20 64) { word1 .sent with pending := 1 }) ∧
    atomicOf (atomicWords 7) = some (.aadd, 7, 5, 8, 1, 0) ∧ prov8 ⟨5, 3⟩ ∈ (stateNode [] [] [prov8 ⟨5, 3⟩]).words ∧ Claims.WordsRise (stateNode [] [] [prov8 ⟨5, 3⟩]) ∧
    (∀ k < 4, ((stateNode [] [] [prov8 ⟨5, 3⟩]).tower k).join.episodes = []) ∧ (stateNode [] [window5 true] []).nodeHeld atomic5.sender.node = false ∧
    (stateNode [] [window5 true] []).translate 0 8 true (some 0) = .ok (shm + 8) ∧
    (stateNode [] [] []).collectives = [] ∧ stateColl.collectives = [member 5 3 0 1] ∧ (member 5 3 0 1).form = (member 1 1 1 1).form ∧
    (member 5 3 0 1).form ≠ (member 1 1 1 0).form ∧
    Claims.At stateColl 1 1 0 .queued (taskRem 0 .queued (.allgather ext) gatherWords) (opOf (.allgather ext) (setM 0x20 64) { word1 .queued with data := gatherWords }) ∧
    (collectiveOf (.allgather ext) gatherWords).isSome ∧ (taskM.segment 2).typ ≠ 6 := by
  simp only [Claims.At, Claims.WordsRise]
  and_intros <;> first | with_reducible rfl | decide +kernel | nofun

/-- Channel 2 at node 5 with a queue of two-word entries in tower 0's shared memory, with room or full, or with launches; and a port that is up. -/
def hostCtl (tail : Word) : Memory := ((tables.writeWord (shm + 128) 0x21).writeWord (shm + 136) 64).writeWord (shm + 144) tail
def stateHost (mode : Nat) (tail : Word) : State :=
  { stateNode [] [] [] with mem := hostCtl tail, incfg := State.reset.incfg.set 2 (5#64 <<< 50 ||| BitVec.ofNat 64 mode <<< 48 ||| BitVec.ofNat 64 (shm + 128)) }
def stateUp (st : BitVec 2) (fails : Nat) : State :=
  { stateNode [] [] [] with links := State.reset.links.set 1 ⟨7, 8, 5, st, fails, 0⟩, outbox := [.row { row5 8 1 with dest := 5, sender := ⟨1, 3⟩ }] }

theorem witness_ChannelsAndLinks :
    (stateHost 2 0).nodeHeld 5 = false ∧ ((stateHost 2 0).incfg.getD 2 0).extractLsb' 50 14 = 5 ∧ ((stateHost 2 0).incfg.getD 2 0).extractLsb' 48 2 = 2 ∧
    ((stateHost 1 0).incfg.getD 2 0).extractLsb' 48 2 = 1 ∧ ((stateHost 0 0).incfg.getD 2 0).extractLsb' 48 2 = 0 ∧
    (((stateHost 2 0).incfg.getD 2 0).extractLsb' 6 42).toNat * 64 = shm + 128 ∧ ((stateHost 2 0).hostQueue (shm + 128)).isSome ∧
    (((stateHost 2 0).hostQueue (shm + 128)).map fun q => decide (q.used < q.n)) = some true ∧ (stateHost 2 0).hostWritesAhead 5 = false ∧ 
    ({ stateHost 1 0 with agenda := [.event (.systemAgentWrite 5 0 []), .event (.hostToken 2 5 0)], cur := some (.event (.hostToken 2 5 0), 1) } :
      State).hostWritesAhead 5 = true ∧
    (((stateHost 2 2).hostQueue (shm + 128)).map fun q => decide (q.n ≤ q.used)) = some true ∧
    ((stateUp 1 14).link 1).st = 1 ∧ ((stateUp 1 14).link 1).fails < 15 ∧ 15 ≤ ((stateUp 1 15).link 1).fails ∧ 1 < (stateUp 1 15).links.length ∧
    ((stateUp 2 0).link 1).st = 2 ∧ ((stateUp 1 15).link 1).peer = 5 := by
  and_intros <;> first | with_reducible rfl | decide +kernel | nofun

/-! The reward join engine. Episodes of trajectory 0x77 of tower 0 of node 1; its records lie at 0x10000, its queues at 0x8000 and 0x9000. -/

def jOp (i : Instr) (a b c : Word) : OpRec := opOf i (setAt (.elem 0 0) (some (tok 0 [a])) (some (tok 0 [b])) (some (tok 0 [c]))) (word1 .ready)
def taskJ (i : Instr) (a b c : Word) : Task := withOp taskM (jOp i a b c)
def traj1 : BitVec 48 := 0x000400000077
def episode (st : EpisodeState) (steps : Nat) : Episode := ⟨2, traj1, st, 1, steps, 0x40000000, false, 0, 10, [], [], some (1, 0), 0, false⟩
def joinE (es : List Episode) : JoinEngine := { JoinEngine.reset with
  en := true, configured := true, logl := 4, base := 0x10000, gamma := 0x3F800000, gl := 0x3F000000, tout := 1, maxlag := 2, lqva := 0x8000, oqva := 0x9000
  episodes := es, unresolved := [0] }
def recordMem : Memory := ((((((tables.writeWord (shm + 0x8000) 0x61).writeWord (shm + 0x8004) 0x1240).writeWord (shm + 0x8008) 64).writeWord (shm + 0x9000) 0x4E).writeWord
  (shm + 0x9004) 0x40).writeWord (shm + 0x9008) 64 : Memory)
/-- Slot 0 of entry 2, and its word when a reward has come or is provisional. -/
def slot2 : Nat := shm + 0x10000 + 2 * 512 + 16
def fullSlot : WordState := ⟨slot2, .full, 1, none, 0, []⟩
def provSlot : WordState := ⟨slot2, .provisional, 1, some (.remote ⟨5, 3⟩), 0x3F800000, []⟩
def emptySlot : WordState := ⟨slot2, .deferred, 1, none, 0, []⟩
def stateJoin (ts : List Task) (e : JoinEngine) (xs : List WordState) : State :=
  { stateNode ts [] xs with mem := recordMem, time := 20, towers := State.reset.towers.set 0 { Tower.reset with join := e } }
def stateJ (i : Instr) (a b c : Word) (e : JoinEngine) : State := { stateJoin [taskJ i a b c] e [] with mem := words64 [] }
def departs (s : State) (t : Task) (o : OpRec) : Bool :=
  decide (s.op? 1 1 = some (t, o)) && decide ((o.at 0).stage = .ready) && !(o.at 0).dropped && decide (t.frozen = .none) && decide (t.phase = .running) && !t.schedule &&
    decide (t.id = 1) && decide (o.id = 1) && decide (o.firing.task = 1) && t.isBase (o.firing.instAt 0) && decide (s.portUsed t.hoop < 32)
def goes (i : Instr) (a b c : Word) (e : JoinEngine) : Bool := departs (stateJ i a b c e) (taskJ i a b c) (jOp i a b c)
def bound1 (e : JoinEngine) : Option Episode := e.episodes.find? fun y => y.st == .open && y.bound == some (1, 0)
def jcfgWords : List Word := [0x3F800000, 0x3F000000, 5, 0x00020003, 0x8000, 0, 0x9000, 0]
def taskCfg : Task := taskPort (.jcfg ext) 0x20 64 .ready []
def stateCfg (e : JoinEngine) : State := { stateJoin [taskCfg] e [] with
  mem := (jcfgWords.zipIdx.foldl (fun m x => m.writeWord (shm + 64 + 4 * x.2) x.1) recordMem : Memory) }

theorem witness_RewardCommandsPerform :
    goes (.epopen ext) 0x77 4 9 (joinE []) = true ∧ ((stateJ (.epopen ext) 0x77 4 9 (joinE [])).engine 0 3).frozen = .none ∧
    goes (.epopen ext) 0x77 4 9 JoinEngine.reset = true ∧ JoinEngine.reset.en = false ∧ (joinE []).en = true ∧ (joinE []).configured = true ∧ (joinE []).asid = taskM.tcb.asid ∧
    (Claims.trajectory 0x77 4).extractLsb' 34 14 = (stateJ (.epopen ext) 0x77 4 9 (joinE [])).node ∧ ((Claims.trajectory 0x77 4).extractLsb' 32 2).toNat = 0 ∧
    (4 : Word).extractLsb' 16 16 = (0 : BitVec 16) ∧ (Claims.trajectory 0x77 8).extractLsb' 34 14 ≠ (1 : BitVec 14) ∧
    (bound1 (joinE [episode .open 1])).isSome ∧ bound1 (joinE [{ episode .open 1 with bound := none }]) = none ∧ traj1 = Claims.trajectory 0x77 4 ∧
    ((stateJ (.epopen ext) 0x77 4 9 (joinE [])).freeEntry 0).1.isSome ∧
    goes (.epstep ext) 3 4 5 (joinE [episode .open 1]) = true ∧ bound1 (joinE []) = none ∧ 2 ^ (joinE []).logl.toNat ≤ (episode .open 16).steps ∧
    (stateJ (.epstep ext) 3 4 5 (joinE [episode .open 15])).translate 0 (0x10000 + 2 * 2 ^ 9 + 32 * 15 + 4 * 0) true none = .ok (shm + 0x10000 + 2 * 512 + 480) ∧
    goes (.epend ext) 0 1 0 (joinE [episode .open 1]) = true ∧ (stateJ (.epend ext) 0 1 0 (joinE [episode .open 1])).episode? 0 2 = some (episode .open 1) ∧
    ((match (stateJ (.epend ext) 0 1 0 (joinE [episode .open 1])).slotViews 0 2 0 1 with | .ok v => v | .error _ => []) = [.empty]) ∧
    ((match ({ stateJ (.epend ext) 0 1 0 (joinE [episode .open 1]) with words := [fullSlot] }).slotViews 0 2 0 1 with | .ok v => v | .error _ => []) = [.full]) ∧
    goes (.rwsend ext) 0x77 0x00300004 9 (joinE []) = true ∧ (0x00300004 : Word).extractLsb' 16 4 = (0 : BitVec 4) ∧ goes (.lvset ext) 7 0 0 (joinE []) = true ∧
    goes (.jstat ext) 0x101 0 0 (joinE []) = true ∧ Claims.joinValue (joinE []) 1 = some 0 ∧ Claims.joinValue (joinE []) 14 = some 0 ∧ ((0x101 : Word).extractLsb' 0 8).toNat = 1 ∧
    departs (stateCfg { joinE [] with configured := false }) taskCfg (portOp (.jcfg ext) 0x20 64 .ready []) = true ∧ jcfgCtlOk 0x20 = true ∧
    firstOf ((stateCfg (joinE [])).descriptorReads taskCfg (portOp (.jcfg ext) 0x20 64 .ready []).firing 2 none (wordOffsets 64 8)) = some jcfgWords ∧
    (0x3F800000 : Word).extractLsb' 23 8 ≠ (0xFF : BitVec 8) ∧ (0x00020003 : Word).extractLsb' 2 14 = (0 : BitVec 14) ∧
    (stateCfg (joinE [])).queueFits 0 0x8000 none 3 0x1240 = true ∧ (stateCfg (joinE [])).queueFits 0 0x9000 (some 14) 2 0x40 = true := by
  and_intros <;> first | with_reducible rfl | decide +kernel | nofun

def reward (step : Nat) : RewardMsg := ⟨⟨5, 3⟩, 1, 0, 0, traj1, step, 0x3F800000⟩
def heldE (adv ret : List Word) (steps : Nat) : Episode := { episode .held steps with adv := adv, ret := ret, bound := none }
def judged1 (adv ret : List Word) : Episode := { heldE adv ret 2 with judged := true }
def engineQueue (s : State) (va line : Nat) (q : QueueLine) (pas : List Nat) : Bool :=
  decide (s.translate 0 va true none = .ok line) && (regionOf line).isShared && decide (s.queueLine line = some q) && decide (pas.length = q.size) &&
    (List.range q.size).all fun k => decide (s.translate 0 (((va : Int) + (q.delta q.tail k).toInt).toNat % 2 ^ 57) true none = .ok (pas.getD k 0)) && (regionOf (pas.getD k 0)).isShared
def viewsOf (s : State) (n : Nat) : List SlotView := match s.slotViews 0 2 0 n with
  | .ok v => v
  | .error _ => []
def okWords (r : Except (BitVec 8) (List Word)) : List Word := match r with
  | .ok ws => ws
  | .error _ => []

theorem witness_EpisodesJoin :
    (stateJoin [] (joinE []) []).nodeHeld 5 = false ∧ ((traj1.extractLsb' 32 2).toNat = 0) ∧ (reward 0).asid = (joinE []).asid ∧
    (joinE [episode .open 1]).episodes.find? (fun y => y.ident == (reward 0).traj) = some (episode .open 1) ∧ (episode .closed 1).deadline < (stateJoin [] (joinE []) []).time.toNat ∧
    (episode .open 1).st = .open ∧ (episode .open 1).steps ≤ (reward 1).step ∧ (reward 0).step < (episode .open 1).steps ∧
    (stateJoin [] (joinE [episode .open 1]) []).recordPa 0 2 0 4 true = .ok slot2 ∧ (stateJoin [] (joinE [episode .open 1]) [fullSlot]).wordAt slot2 = some fullSlot ∧
    (stateJoin [] (joinE [episode .open 1]) []).wordAt slot2 = none ∧
    engineQueue (stateJoin [] (joinE []) []) 0x9000 (shm + 0x9000) ⟨2, 16384, 0x40, 64, 0, 0, 0⟩ ((List.range 4).map fun k => shm + 0x9040 + 4 * k) = true ∧
    (stateJoin [] (joinE [episode .closed 1]) []).episode? 0 2 = some (episode .closed 1) ∧
    viewsOf (stateJoin [] (joinE [episode .closed 1]) [fullSlot]) 1 = [.full] ∧ viewsOf (stateJoin [] (joinE [episode .closed 1]) [provSlot]) 1 = [.provisional] ∧
    viewsOf (stateJoin [] (joinE [episode .closed 2]) [fullSlot]) 2 = [.full, .empty] ∧ (stateJoin [] (joinE [episode .closed 2]) [fullSlot]).recordPa 0 2 1 0 false = .ok (slot2 + 16) ∧
    (stateJoin [] (joinE [episode .scan 2]) []).episode? 0 2 = some (episode .scan 2) ∧ (okWords ((stateJoin [] (joinE [episode .scan 2]) []).recordWords 0 2 4 0 2)).length = 2 ∧
    (joinE [heldE [] [] 0]).turnOf (heldE [] [] 0) = true ∧ (heldE [0, 0] [0, 0] 2).adv.length = (heldE [0, 0] [0, 0] 2).steps ∧
    ((2 : Nat) : Int) < ({ joinE [] with lv := 4 }.lv - (episode .held 1).version).toInt ∧ ¬((2 : Nat) : Int) < ((3 : Word) - (episode .held 1).version).toInt ∧
    (okWords ((stateJoin [] (joinE [heldE [1] [2] 2]) []).recordWords 0 2 1 1 1)).length = 1 ∧
    engineQueue (stateJoin [] (joinE []) []) 0x8000 (shm + 0x8000) ⟨3, 2, 0x1240, 64, 0, 0, 0⟩ ((List.range 8).map fun k => shm + 0x8040 + 4 * k) = true ∧
    (QueueLine.used ⟨3, 2, 0x1240, 64, 0, 0, 0⟩ < QueueLine.n ⟨3, 2, 0x1240, 64, 0, 0, 0⟩) ∧ (QueueLine.n ⟨3, 2, 0x1240, 64, 0, 4, 0⟩ ≤ QueueLine.used ⟨3, 2, 0x1240, 64, 0, 4, 0⟩) ∧
    (joinE [judged1 [1] [2]]).turnOf (judged1 [1] [2]) = true ∧ (joinE [judged1 [] []]).turnOf (judged1 [] []) = true ∧
    (joinE [{ heldE [1] [2] 2 with seq := 1 }]).turnOf { heldE [1] [2] 2 with seq := 1 } = false := by
  and_intros <;> first | with_reducible rfl | decide +kernel | nofun

/-! The package -/

def stateTick (n : Nat) (b : Bobbin) : State := { State.reset with time := BitVec.ofNat 64 n, bobbin := b }
def stateBoot (b : BringUp) : State := { State.reset with bringUp := b }

theorem witness_PackageComesUp :
    Claims.AtRest State.reset ∧ (State.reset.time + 1).toNat % 1000000 ≠ 0 ∧
    ((stateTick 999999 { Bobbin.reset with beat := 1 }).time + 1).toNat % 1000000 = 0 ∧ ({ Bobbin.reset with beat := 1 }).beat ≠ Bobbin.reset.lastBeat ∧ Bobbin.reset.loaded = false ∧ Bobbin.reset.due = false ∧
    ({ Bobbin.reset with stale := 3 }).beat = ({ Bobbin.reset with stale := 3 }).lastBeat ∧
    State.reset.bringUp ≠ .firmware ∧ (stateBoot .firmware).bringUp = .firmware ∧ ({ Bobbin.reset with loaded := true }).loaded = true ∧ (regionOf 0).isDram = true ∧ State.reset.lineGood 0 0 = true ∧
    (stateNode [] [] []).up = true ∧ State.reset.up = false ∧ ((stateNode [] [] []).link 0).st = 0 ∧ ((stateUp 2 0).link 1).st = 2 ∧ ((stateUp 1 0).link 1).st = 1 := by
  simp only [Claims.AtRest]
  and_intros <;> first | with_reducible rfl | decide +kernel | nofun

theorem witness_AgentsAndScrubs :
    Claims.Heard (stateNode [] [] []) 5 ∧ reachOf (shm + 60) 4 = .memory ∧ (shm + 60) % 64 + 4 ≤ 64 ∧ (stateNode [] [] []).mem.wf = true ∧
    (stateNode [] [] []).lineGood (shm + 60) 0 = true ∧ (∀ k < 4, (stateNode [] [] []).wordRefusesWrite ((shm + 60 + k) / 4 * 4) = false) ∧
    reachOf (operandBase 3) 4 = .operand ∧ reachOf (registerBase + 0x28) 4 = .registers ∧ ((stateNode [] [] []).writeRegWord ⟨0x28, false, 9, false⟩).isSome ∧
    reachOf (registerBase + 2) 4 = .registers ∧ (registerBase + 2) % 4 ≠ 0 ∧ reachOf 0x9000000000 4 = .none ∧ (∀ k < 4, (stateNode [] [] []).lineGood (shm + k) 0 = true) ∧
    { stateNode [] [] [] with poison := [64] }.lineGood 64 0 = false ∧ (∀ i < 2, { stateNode [] [] [] with poison := [64] }.lineGood (62 + i) 0 = true) ∧
    reachOf 62 4 = .memory ∧ (stateNode [task1] [] []).holder 0 0 = some task1 := by
  simp only [Claims.Heard]
  and_intros <;> first | with_reducible rfl | decide +kernel | nofun

def stateDue (ws : Option (List (Nat × BitVec 10))) : State := { State.reset with bobbin := { Bobbin.reset with due := true, en := true, writes := ws } }

theorem witness_HeatAndPower :
    (0 : Nat) < 1 ∧ (4095 : Nat) < 4096 ∧ State.reset.sensors.length = 128 ∧ State.reset.bobbin.loaded = false ∧
    State.reset.hoops.length = 64 ∧
    (∀ x ∈ State.reset.hoops, x.domains.length = 5) ∧ State.reset.feedcap ≠ 0 ∧ State.reset.capReached = false ∧ State.reset.bobbin.due = false ∧
    (stateDue none).bobbin.due = true ∧ (stateDue none).bobbin.writes = none ∧ (stateDue (some [(7, 600)])).bobbin.writes = some [(7, 600)] ∧
    (stateDue (some [])).bobbin.writes = some [] ∧ (stateDue none).hot 0 = false ∧ ({ stateDue none with bobbin := { Bobbin.reset with temps := List.replicate 128 0xFFF } }).hot 0 = true ∧
    ({ (stateDue none).domain 0 0 with bounded := true }).bounded = true ∧ ((stateDue none).domain 0 0).bounded = false ∧
    { State.reset with pumpsStalled := true }.pumpsStalled = true ∧ { State.reset with capReached := true }.capReached = true := by
  and_intros <;> first | with_reducible rfl | decide +kernel | nofun

/-- The write of a target, for a domain at rest, answers a next state. -/
theorem witness_HeatAndPower_write : ∃ s1, exec (.qmTargetWrite ⟨0x200004 + 0x1000 * (7 / 5) + 0x100 * (7 % 5), false, (600 : BitVec 10).zeroExtend 64, true⟩)
    { stateDue (some [(7, 600)]) with bobbin := { (stateDue (some [(7, 600)])).bobbin with writes := some [] } } = .next s1 := ⟨_, rfl⟩

/-! Steps -/

/-- A running task with a complete set of ADD in the agenda, and one whose word has no meaning. -/
def stateStep (w : Word) : State := { withTasks [fetchTask 1 w (.elem 0 0)] with agenda := [.firing set2] }

theorem witness_StepRunsDecodedInstruction :
    Claims.looksAt (stateStep addWord).noteAdmitted = (0, stateStep addWord) ∧ Claims.Claiming (stateStep addWord) 0 set2 taskAdd (.add addF) 1 ∧
    (taskAdd.placed? 0 0).map (fun p => (p.word, p.lit)) = some (addWord, 0) ∧
    (fetchTask 1 0 (.elem 0 0)).phase = .running ∧ ({ State.reset with agenda := [.event .feedWindow] }).channelHeld 0 (.event .feedWindow) = false ∧
    State.reset.agenda[0]? = none ∧ decodeTableWord 32 addWord.toNat = some (.add addF) ∧ State.reset.outputQueue 1 (zeroFiring 1 (.add addF)).site = 0 ∧
    State.reset.works = [] := by
  simp only [Claims.Claiming]
  and_intros <;> first | with_reducible rfl | decide +kernel | nofun

theorem witness_StepRunsDecodedInstruction_words : decode addWord 0 = .ok (.add addF) ∧ decode 0 0 = .error .opcode := ⟨rfl, rfl⟩

theorem witness_EveryStepKeepsInvariant : Claims.Inv State.reset ∧ ∃ s', step State.reset = .next s' := by
  refine ⟨⟨by decide +kernel, ?_⟩, _, rfl⟩
  exact List.Pairwise.nil

theorem witness_DecodeReadsEncoding : WellFormed (.add addF) ∧ encodeWord (.add addF) = some addWord := by
  and_intros <;> first | with_reducible rfl | decide +kernel | nofun

/-! ### Results: the manual's worked numbers, and corners computed by hand from its formulas -/

/-- One target, no literal. -/
def one : StdForm := ⟨.keep, false, false, false, 3, 0x1FF, 0⟩

/-- What a firing sends into the network, by format and words, and the flags that its instance has collected. -/
def sent (s : State) : List (BitVec 3 × List Word) := s.agenda.filterMap fun x => match x with
  | .event (.tokenRoute fl) => some (fl.tok.tag.fmt, fl.tok.words)
  | _ => none
def result (i : Instr) (a b c : Option Token) : Option (List (BitVec 3 × List Word) × BitVec 5) :=
  match exec i (atSet (setAt (.elem 0 0) a b c) task1) with
  | .next s => some (sent s, ((s.task? 1).bind fun t => t.insts.head?.map fun x => x.flags).getD 0)
  | _ => none
def i32 (w : Word) : Option Token := some (tok 0 [w])
def f32t (w : Word) : Option Token := some (tok 1 [w])

/-- Instructions of the standard form on two I32 words and what they give. -/
def gives2 (xs : List ((StdForm → Instr) × Word × Word × Word)) : Bool :=
  xs.all fun x => result (x.1 one) (i32 x.2.1) (i32 x.2.2.1) none == some ([(0, [x.2.2.2])], 0)
def gives1 (xs : List ((StdForm → Instr) × Word × Word)) : Bool :=
  xs.all fun x => result (x.1 one) (i32 x.2.1) none none == some ([(0, [x.2.2])], 0)

/-- R142 and R143: wraps, clamps, and the fixed corners of division. -/
theorem test_integer_arithmetic : gives2
    [(.add, 0xFFFFFFFF, 2, 1), (.sub, 1, 3, 0xFFFFFFFE), (.adds, 0x7FFFFFFF, 1, 0x7FFFFFFF), (.subs, 0x80000000, 1, 0x80000000),
     (.addus, 0xFFFFFFFE, 5, 0xFFFFFFFF), (.subus, 3, 5, 0), (.mul, 0x10000, 0x10001, 0x10000), (.mulh, 0xFFFFFFFF, 2, 0xFFFFFFFF),
     (.mulhu, 0xFFFFFFFF, 2, 1), (.div, 0xFFFFFFF9, 2, 0xFFFFFFFD), (.div, 5, 0, 0xFFFFFFFF), (.divu, 0xFFFFFFF9, 2, 0x7FFFFFFC),
     (.rem, 0xFFFFFFF9, 2, 0xFFFFFFFF), (.rem, 5, 0, 5), (.remu, 0xFFFFFFF9, 4, 1)] = true := by decide +kernel

theorem test_division_extreme : gives2 [(.div, 0x80000000, 0xFFFFFFFF, 0x80000000), (.rem, 0x80000000, 0xFFFFFFFF, 0),
    (.divu, 7, 0, 0xFFFFFFFF), (.remu, 7, 0, 7)] = true := by decide +kernel

/-- R144 to R146. -/
theorem test_integer_logic : gives2
    [(.and, 0xC, 0xA, 8), (.or, 0xC, 0xA, 0xE), (.xor, 0xC, 0xA, 6), (.andn, 0xC, 0xA, 4), (.shl, 1, 33, 2), (.shr, 0x80000000, 63, 1),
     (.sar, 0x80000000, 4, 0xF8000000), (.rol, 0x80000001, 1, 3), (.min, 0xFFFFFFFF, 1, 0xFFFFFFFF), (.max, 0xFFFFFFFF, 1, 1),
     (.minu, 0xFFFFFFFF, 1, 1), (.maxu, 0xFFFFFFFF, 1, 0xFFFFFFFF)] = true ∧
    gives1 [(.clz, 0, 32), (.clz, 1, 31), (.ctz, 0, 32), (.ctz, 8, 3), (.popc, 0xF0F00001, 9), (.brev, 0x80000001, 0x80000001), (.brev, 6, 0x60000000),
     (.abs, 0x80000000, 0x80000000), (.abs, 0xFFFFFFFD, 3), (.neg, 0x80000000, 0x80000000), (.neg, 1, 0xFFFFFFFF)] = true := by decide +kernel

/-- R148 to R150. -/
theorem test_integer_fields : gives2
    [(.extb, 0x1280FF00, 6, 0xFFFFFF80), (.extb, 0x1280FF00, 2, 0x80), (.exth, 0x8001FF00, 5, 0xFFFF8001), (.exth, 0x8001FF00, 0, 0xFF00),
     (.bfx, 0xABCD1234, 0x0E8, 0x12), (.bfx, 0x80000000, 0x4FC, 0xFFFFFFF8), (.teq, 5, 5, 1), (.tne, 5, 5, 0), (.tlt, 0xFFFFFFFF, 0, 1),
     (.tle, 0, 0, 1), (.tltu, 0xFFFFFFFF, 0, 0), (.tleu, 1, 0, 0)] = true := by decide +kernel

theorem test_integer_three : (result (.bfi one) (i32 0xFFFFFFFF) (i32 0x0E8) (i32 0x12) == some ([(0, [0xFFFF12FF])], 0)) = true ∧
    (result (.muladd one) (i32 0x10000) (i32 0x10000) (i32 9) == some ([(0, [9])], 0)) = true ∧
    (result (.sel one) (f32t 0x7F800001) (f32t 2) (i32 1) == some ([(1, [0x7F800001])], 0)) = true ∧
    (result (.sel one) (f32t 1) (f32t 2) (i32 0) == some ([(1, [2])], 0)) = true := by decide +kernel

def givesF (xs : List ((StdForm → Instr) × Word × Word × Word × BitVec 5)) : Bool :=
  xs.all fun x => result (x.1 one) (f32t x.2.1) (f32t x.2.2.1) none == some ([(1, [x.2.2.2.1])], x.2.2.2.2)
def givesF1 (xs : List ((StdForm → Instr) × Word × Word × BitVec 5)) : Bool :=
  xs.all fun x => result (x.1 one) (f32t x.2.1) none none == some ([(1, [x.2.2.1])], x.2.2.2)

/-- The fused form keeps what the product loses (R75, R152); infinities, zeros and division (R153, R158). -/
theorem test_float_arithmetic : givesF
    [(.fmul, 0x3F800800, 0x3F800800, 0x3F801000, 1), (.fadd, 0x3F801000, 0xBF801000, 0, 0), (.fadd, 0x7F800000, 0xFF800000, 0x7FC00000, 16),
     (.fsub, 0x7F7FFFFF, 0xFF7FFFFF, 0x7F800000, 5), (.fmul, 0x7F800000, 0, 0x7FC00000, 16), (.fmin, 0, 0x80000000, 0x80000000, 0),
     (.fmax, 0x7FC00000, 0x40000000, 0x40000000, 0), (.fmin, 0x7F800001, 0x7FC00000, 0x7FC00000, 16), (.fdiv, 0x3F800000, 0, 0x7F800000, 8),
     (.fdiv, 0, 0, 0x7FC00000, 16), (.fdiv, 0x3F800000, 0x40400000, 0x3EAAAAAB, 1)] = true ∧
    (result (.ffma one) (f32t 0x3F800800) (f32t 0x3F800800) (f32t 0xBF801000) == some ([(1, [0x33800000])], 0)) = true ∧
    (result (.ffms one) (f32t 0x3F800800) (f32t 0x3F800800) (f32t 0x3F801000) == some ([(1, [0x33800000])], 0)) = true := by decide +kernel

theorem test_float_one : givesF1
    [(.fabs, 0xC0000000, 0x40000000, 0), (.fneg, 0x7F800001, 0x7FC00000, 0), (.fneg, 0, 0x80000000, 0), (.fsqrt, 0x40800000, 0x40000000, 0),
     (.fsqrt, 0x80000000, 0x80000000, 0), (.fsqrt, 0xBF800000, 0x7FC00000, 16), (.frcp, 0x80000000, 0xFF800000, 8), (.frsq, 0x40800000, 0x3F000000, 0),
     (.frsq, 0xFF800000, 0x7FC00000, 16), (.fexp2, 0x80000000, 0x3F800000, 0), (.fexp2, 0x40400000, 0x41000000, 0), (.flog2, 0, 0xFF800000, 8),
     (.flog2, 0x41000000, 0x40400000, 0)] = true := by decide +kernel

/-- R155 to R157, with R157's table. -/
theorem test_float_tests :
    ([(.feq, 0, 0x80000000, 1, 0), (.feq, 0x7F800001, 0, 0, 16), (.flt, 0x7FC00000, 0, 0, 16), (.fle, 0x80000000, 0, 1, 0),
      (.funo, 0x7FC00000, 0, 1, 0)] : List ((StdForm → Instr) × Word × Word × Word × BitVec 5)).all
      (fun x => result (x.1 one) (f32t x.2.1) (f32t x.2.2.1) none == some ([(0, [x.2.2.2.1])], x.2.2.2.2)) = true ∧
    ([(0xFF800000, 1), (0x80000000, 8), (0x00000001, 0x20), (0x3F800000, 0x40), (0x7F800001, 0x100), (0x7FC00000, 0x200)] : List (Word × Word)).all
      (fun x => result (.fclass one) (f32t x.1) none none == some ([(0, [x.2])], 0)) = true ∧
    ([(0x40200000, 0, 0x40000000, 1), (0xC0200000, 2, 0xC0400000, 1), (0xBE800000, 3, 0x80000000, 1), (0x4B800001, 1, 0x4B800001, 0)] :
      List (Word × Word × Word × BitVec 5)).all
      (fun x => result (.frnd one) (f32t x.1) (i32 x.2.1) none == some ([(1, [x.2.2.1])], x.2.2.2)) = true := by decide +kernel

/-- The examples of R169, R177 and R78: PADD2, DOT4, HDRT, and one C4O word under codebook cb2. -/
theorem test_vector_examples :
    (result (.padd2 one) (some (tok 2 [0x3F803F80])) (some (tok 2 [0x3B804000])) none == some ([(2, [0x3F804040])], 1)) = true ∧
    (result (.dot4 one) (i32 5) (i32 0x80FF0102) (i32 0x7F01FF03) == some ([(0, [0xFFFFC089])], 0)) = true ∧
    (result (.hdrt one) (some (tok 6 [0x00090080])) (i32 0xFFFFFFFD) none == some ([(6, [0x0009007D])], 0)) = true := by decide +kernel

def cb2 : List (BitVec 16) := [0x0000, 0x3F00, 0x3F80, 0x3FC0, 0x4000, 0x4040, 0x4080, 0x40C0, 0x8000, 0xBF00, 0xBF80, 0xBFC0, 0xC000, 0xC040, 0xC080, 0xC0C0]
def block8 : List FVal := [0x3F400000, 0xC0400000, 0x41200000, 0x3DCCCCCD, 0, 0xC1400000, 0x40A00000, 0x4039999A].map f32

theorem test_quantise_example : quantC4 cb2 block8 = ⟨0x80, [1, 11, 6, 0, 0, 15, 4, 3], 1⟩ ∧ packCodes 4 (quantC4 cb2 block8).codes = 0x34F006B1 ∧
    headerWord 4 true 0 (quantC4 cb2 block8).scale = 0x00090080 ∧ decodeC4 (cb2.getD 6 0) 0x80 = (0x41000000, 0) := by decide +kernel

/-- R74's example over K = 16, group by group. -/
theorem test_group_example :
    groupResult (groupSum ((0x4B800000 :: List.replicate 7 0x3F800000).map fun w => (f32 w, f32 0x3F800000))) (some 0) (some 0) = (0x4B800004, 1) ∧
    groupResult (groupSum (List.replicate 8 (f32 0x3F800000, f32 0xBF800000))) (some 0) (some 0) = (0xC1000000, 0) ∧
    fadd 0x4B800004 0xC1000000 = (0x4B800000, 0) := by decide +kernel

/-- The scans of the reward program: episodes E1 and E2 under γ 0.75 and γλ 0.375. -/
theorem test_scan_examples :
    scanBack 0x3F400000 0x3EC00000 [(0x3F000000, 0x40000000), (0x3FC00000, 0x3E800000), (0x40000000, 0x3F800000), (0x3F800000, 0x3F000000)] true 0 0 [] [] 0 =
      ([0x3F806000, 0x3C000000, 0xBEA00000, 0x3FC00000], [0x40003000, 0x40008000, 0x3F980000, 0x40000000], 0) ∧
    scanBack 0x3F400000 0x3EC00000 [(0x3F800000, 0x3F400000), (0x40000000, 0xBF800000), (0x3F000000, 0x3FC00000), (0x3F800000, 0x3F000000)] false 0
      0x40800000 [] [] 0 =
      ([0x3F242000, 0x4002C000, 0xBF9C0000, 0x40300000], [0x3FD21000, 0x4022C000, 0x3F480000, 0x40700000], 0) := by decide +kernel

/-- R72 at a bank, and the leaf of R477's example. -/
theorem test_bank_add : bankCompute .afadd 0x7F800000 0xFF800000 0 = (0x7FC00000, 16) ∧ bankCompute .afadd 0x4B800000 0x3F800000 0 = (0x4B800000, 1) ∧
    bankCompute .acas 7 9 7 = (9, 0) ∧ bankCompute .acas 7 9 8 = (7, 0) ∧ bankCompute .amin 0xFFFFFFFF 1 0 = (0xFFFFFFFF, 0) := by decide +kernel

/-- The block image of 04_encoding: ADD, WRITE and EXIT. -/
theorem test_decode_image : decode 0x02080202 0 = .ok (.add ⟨.keep, false, true, false, 1, 2, 0⟩) ∧ decode 0x98000000 0 = .ok (.exit 0) := by
  and_intros <;> rfl

end Sys2Proof.Tests
end

section
/-!
SUPPORT. The words that the integer instructions compute (R141 to R150, R169): each operation of the model, which goes over
unbounded integers, is the operation on machine words that its rule names.
-/

open Sys2Proof.Claims

namespace Sys2Proof.Machine

/-! ### W(v) (R141) -/

@[simp] theorem wrap_toNat (a : Word) : Word.wrap (a.toNat : Int) = a := by
  rw [Word.wrap, BitVec.ofInt_natCast, BitVec.ofNat_toNat, BitVec.setWidth_eq]

@[simp] theorem wrap_toInt (a : Word) : Word.wrap a.toInt = a := BitVec.ofInt_toInt

@[simp] theorem wrap_add (v w : Int) : Word.wrap (v + w) = Word.wrap v + Word.wrap w := BitVec.ofInt_add v w

@[simp] theorem wrap_mul (v w : Int) : Word.wrap (v * w) = Word.wrap v * Word.wrap w := BitVec.ofInt_mul v w

@[simp] theorem wrap_neg (v : Int) : Word.wrap (-v) = -Word.wrap v := BitVec.ofInt_neg

@[simp] theorem wrap_sub (v w : Int) : Word.wrap (v - w) = Word.wrap v - Word.wrap w := by
  rw [Int.sub_eq_add_neg, wrap_add, wrap_neg, BitVec.sub_eq_add_neg]

/-- W of a natural number, by the remainder of the number. -/
theorem toNat_wrap_natCast (n : Nat) : (Word.wrap (n : Int)).toNat = n % 2 ^ 32 := by
  rw [Word.wrap, BitVec.ofInt_natCast, BitVec.toNat_ofNat]

/-- A product with a power of two shifts left. -/
theorem wrap_mul_two_pow (v : Int) (k : Nat) : Word.wrap (v * 2 ^ k) = Word.wrap v <<< k := by
  have h : Word.wrap (2 ^ k) = BitVec.twoPow 32 k := by
    apply BitVec.eq_of_toNat_eq
    rw [BitVec.toNat_twoPow, ← toNat_wrap_natCast, Int.natCast_pow]
    rfl
  rw [wrap_mul, h, ← BitVec.shiftLeft_eq_mul_twoPow]

/-- The quotient of the unsigned value by a power of two shifts right. -/
theorem wrap_toNat_div_two_pow (a : Word) (k : Nat) : Word.wrap ((a.toNat / 2 ^ k : Nat) : Int) = a >>> k := by
  apply BitVec.eq_of_toNat_eq
  rw [toNat_wrap_natCast, BitVec.toNat_ushiftRight, Nat.shiftRight_eq_div_pow]
  exact Nat.mod_eq_of_lt (Nat.lt_of_le_of_lt (Nat.div_le_self _ _) a.isLt)

/-- The quotient of the signed value by a power of two shifts right under the sign. -/
theorem wrap_toInt_div_two_pow (a : Word) (k : Nat) : Word.wrap (a.toInt / 2 ^ k) = a.sshiftRight k := by
  rw [Word.wrap, BitVec.sshiftRight, Int.shiftRight_eq_div_pow]
  norm_cast

/-! ### The fields of a control word -/

/-- A mask of `k` low bits leaves the remainder by 2^k. -/
theorem toNat_and_mask (b m : Word) (k : Nat) (h : m.toNat = 2 ^ k - 1) : (b &&& m).toNat = b.toNat % 2 ^ k := by
  rw [BitVec.toNat_and, h, Nat.and_two_pow_sub_one_eq_mod]

theorem toNat_and_31 (b : Word) : (b &&& 31#32).toNat = b.toNat % 32 := toNat_and_mask b 31#32 5 rfl

theorem toNat_and_3 (b : Word) : (b &&& 3#32).toNat = b.toNat % 4 := toNat_and_mask b 3#32 2 rfl

theorem toNat_and_1 (b : Word) : (b &&& 1#32).toNat = b.toNat % 2 := toNat_and_mask b 1#32 1 rfl

theorem shiftAmount_eq (b : Word) : shiftAmount b = (b &&& 31#32).toNat := (toNat_and_31 b).symm

theorem bfPos_eq (b : Word) : bfPos b = (b &&& 31#32).toNat := (toNat_and_31 b).symm

theorem bfWidth_eq (b : Word) : bfWidth b = (b >>> 5 &&& 31#32).toNat + 1 := by
  rw [bfWidth, toNat_and_31, BitVec.toNat_ushiftRight, Nat.shiftRight_eq_div_pow]

theorem bfWidth_pos (b : Word) : 0 < bfWidth b := Nat.succ_pos _

theorem bfWidth_le (b : Word) : bfWidth b ≤ 32 := by
  unfold bfWidth
  omega

/-! ### Arithmetic (R142) -/

theorem addWords_eq (a b : Word) : addWords a b = a + b := by
  rw [addWords, wrap_add, wrap_toNat, wrap_toNat]

theorem subWords_eq (a b : Word) : subWords a b = a - b := by
  rw [subWords, wrap_sub, wrap_toNat, wrap_toNat]

theorem mulWords_eq (a b : Word) : mulWords a b = a * b := by
  rw [mulWords, wrap_mul, wrap_toNat, wrap_toNat]

theorem muladdWords_eq (a b c : Word) : muladdWords a b c = a * b + c := by
  simp only [muladdWords, wrap_add, wrap_mul, wrap_toNat]

theorem clamp_eq_max_min (v lo hi : Int) (h : lo ≤ hi) : clamp v lo hi = max lo (min v hi) := by
  unfold clamp
  split
  · omega
  · split <;> omega

theorem addsWords_eq (a b : Word) : addsWords a b = W (max (-2 ^ 31) (min (a.toInt + b.toInt) (2 ^ 31 - 1))) := by
  rw [addsWords, clamp_eq_max_min _ _ _ (by decide)]
  rfl

theorem subsWords_eq (a b : Word) : subsWords a b = W (max (-2 ^ 31) (min (a.toInt - b.toInt) (2 ^ 31 - 1))) := by
  rw [subsWords, clamp_eq_max_min _ _ _ (by decide)]
  rfl

/-- A sum of unsigned values is not negative: only the upper bound clamps it. -/
theorem addusWords_eq (a b : Word) : addusWords a b = W (min ((a.toNat : Int) + b.toNat) (2 ^ 32 - 1)) := by
  rw [addusWords, clamp_eq_max_min _ _ _ (by decide), Int.max_eq_right (by omega)]
  rfl

/-- A difference of unsigned values is below 2^32: only the lower bound clamps it. -/
theorem subusWords_eq (a b : Word) : subusWords a b = W (max 0 ((a.toNat : Int) - b.toNat)) := by
  have ha := a.isLt
  rw [subusWords, clamp_eq_max_min _ _ _ (by decide), Int.min_eq_left (by omega)]
  rfl

/-- The upper half of a 64-bit word is the quotient of its value by 2^32. -/
theorem extract_high_ofInt (v : Int) : (BitVec.ofInt 64 v).extractLsb' 32 32 = Word.wrap (v / 2 ^ 32) := by
  apply BitVec.eq_of_toNat_eq
  rw [Word.wrap, BitVec.extractLsb'_toNat, BitVec.toNat_ofInt, BitVec.toNat_ofInt, Nat.shiftRight_eq_div_pow]
  omega

theorem mulhWords_eq (a b : Word) : mulhWords a b = (a.signExtend 64 * b.signExtend 64).extractLsb' 32 32 := by
  rw [mulhWords, ← extract_high_ofInt, BitVec.ofInt_mul]
  rfl

theorem zeroExtend_eq_ofInt_toNat (a : Word) : a.zeroExtend 64 = BitVec.ofInt 64 a.toNat := by
  rw [BitVec.ofInt_natCast, BitVec.ofNat_toNat]

theorem mulhuWords_eq (a b : Word) : mulhuWords a b = (a.zeroExtend 64 * b.zeroExtend 64).extractLsb' 32 32 := by
  rw [mulhuWords, ← extract_high_ofInt, BitVec.ofInt_mul, zeroExtend_eq_ofInt_toNat, zeroExtend_eq_ofInt_toNat]

/-! ### Division (R143) -/

/-- The one pair of operands whose quotient does not fit. -/
theorem quotient_overflow_iff (a b : Word) : (a.toInt = minI32 ∧ b.toInt = -1) ↔ (a = 0x80000000 ∧ b = 0xFFFFFFFF) :=
  and_congr (BitVec.toInt_inj (y := 0x80000000#32)) (BitVec.toInt_inj (y := 0xFFFFFFFF#32))

theorem wrap_tdiv (a b : Word) : Word.wrap (a.toInt.tdiv b.toInt) = a.sdiv b := by
  apply BitVec.eq_of_toInt_eq
  rw [Word.wrap, BitVec.toInt_ofInt, BitVec.toInt_sdiv]

theorem wrap_tmod (a b : Word) : Word.wrap (a.toInt.tmod b.toInt) = a.srem b := by
  rw [← BitVec.toInt_srem, wrap_toInt]

theorem divWords_eq (a b : Word) :
    divWords a b = if b = 0 then 0xFFFFFFFF else if a = 0x80000000 ∧ b = 0xFFFFFFFF then 0x80000000 else a.sdiv b := by
  simp only [divWords, quotient_overflow_iff, wrap_tdiv]

theorem remWords_eq (a b : Word) :
    remWords a b = if b = 0 then a else if a = 0x80000000 ∧ b = 0xFFFFFFFF then 0 else a.srem b := by
  simp only [remWords, quotient_overflow_iff, ← Int.tmod_def, wrap_tmod]

theorem divuWords_eq (a b : Word) : divuWords a b = if b = 0 then 0xFFFFFFFF else a.udiv b := by
  rw [divuWords, ← BitVec.toNat_udiv, wrap_toNat]
  rfl

theorem remuWords_eq (a b : Word) : remuWords a b = if b = 0 then a else a.umod b := by
  rw [remuWords, ← BitVec.toNat_umod, wrap_toNat]
  rfl

/-! ### Shifts (R144) -/

theorem shlWords_eq (a b : Word) : shlWords a b = a <<< (b &&& 31#32).toNat := by
  rw [shlWords, wrap_mul_two_pow, wrap_toNat, shiftAmount_eq]

theorem shrWords_eq (a b : Word) : shrWords a b = a >>> (b &&& 31#32).toNat := by
  rw [shrWords, wrap_toNat_div_two_pow, shiftAmount_eq]

theorem sarWords_eq (a b : Word) : sarWords a b = a.sshiftRight (b &&& 31#32).toNat := by
  rw [sarWords, wrap_toInt_div_two_pow, shiftAmount_eq]

theorem rolWords_eq (a b : Word) : rolWords a b = a.rotateLeft (b &&& 31#32).toNat := by
  have h : shiftAmount b % 32 = shiftAmount b := Nat.mod_mod _ _
  rw [rolWords, wrap_mul_two_pow, wrap_toNat, wrap_toNat_div_two_pow, ← shiftAmount_eq, BitVec.rotateLeft_def, h]

/-! ### Counts of bits (R145) -/

/-- The library counts leading zeros down from a bit; the zeros above that bit are given. -/
theorem clzAuxRec_eq_leadingZeros (a : Word) (n : Nat) (h : n < 32) :
    a.clzAuxRec n = BitVec.ofNat 32 (31 - n + leadingZeros a (n + 1)) := by
  induction n with
  | zero =>
    rw [BitVec.clzAuxRec_zero, leadingZeros, leadingZeros]
    split <;> rfl
  | succ n ih =>
    rw [BitVec.clzAuxRec_succ, ih (by omega), leadingZeros.eq_2 a (n + 1)]
    split
    · rfl
    · congr 1; omega

theorem clzWord_eq (a : Word) : clzWord a = a.clz := by
  rw [clzWord, BitVec.clz, clzAuxRec_eq_leadingZeros a _ (by decide)]
  simp only [Nat.reduceSub, Nat.reduceAdd, Nat.sub_self, Nat.zero_add]

/-- Trailing zeros are the leading zeros of the word read backwards. -/
theorem trailingZeros_eq_leadingZeros_reverse (a : Word) (n : Nat) (h : n ≤ 32) :
    trailingZeros a n = leadingZeros a.reverse n := by
  induction n with
  | zero => rfl
  | succ n ih =>
    have hn : n < 32 := h
    have hbit : a.reverse.getLsbD n = a.getLsbD (31 - n) := by
      rw [BitVec.getLsbD_reverse, BitVec.getMsbD_eq_getLsbD, decide_eq_true hn, Bool.true_and]
    rw [trailingZeros, leadingZeros, ih (by omega), hbit]

theorem ctzWord_eq (a : Word) : ctzWord a = a.reverse.clz := by
  rw [ctzWord, trailingZeros_eq_leadingZeros_reverse a 32 (Nat.le_refl _), ← clzWord_eq]
  rfl

theorem popCount_eq_length_filter (a : Word) (n : Nat) :
    popCount a n = ((List.range n).filter fun k => a.getLsbD k).length := by
  induction n with
  | zero => rfl
  | succ n ih =>
    rw [popCount, ih, List.range_succ, List.filter_append, List.length_append]
    cases hb : a.getLsbD n <;>
      simp only [hb, List.filter_cons, List.filter_nil, List.length_cons, List.length_nil, if_true, if_false,
        Bool.false_eq_true] <;>
      omega

theorem popcWord_eq (a : Word) : popcWord a = BitVec.ofNat 32 ((List.range 32).filter fun k => a.getLsbD k).length := by
  rw [popcWord, popCount_eq_length_filter]

/-! ### Order and sign (R146, R150) -/

theorem minWords_eq (a b : Word) : minWords a b = if b.slt a then b else a := by
  simp only [minWords, BitVec.slt_iff_toInt_lt, ← Int.not_lt, ite_not]

theorem maxWords_eq (a b : Word) : maxWords a b = if a.slt b then b else a := by
  simp only [maxWords, BitVec.slt_iff_toInt_lt, ← Int.not_lt, ite_not]

theorem minuWords_eq (a b : Word) : minuWords a b = if b.ult a then b else a := by
  simp only [minuWords, BitVec.ult_iff_lt, BitVec.lt_def, ← Nat.not_lt, ite_not]

theorem maxuWords_eq (a b : Word) : maxuWords a b = if a.ult b then b else a := by
  simp only [maxuWords, BitVec.ult_iff_lt, BitVec.lt_def, ← Nat.not_lt, ite_not]

theorem negWord_eq (a : Word) : negWord a = -a := by
  rw [negWord, Int.zero_sub, wrap_neg, wrap_toNat]

theorem absWord_eq (a : Word) : absWord a = if a.msb then -a else a := by
  rw [absWord, negWord_eq, BitVec.msb_eq_toInt]
  simp only [decide_eq_true_eq]

theorem ofBool_beq (a b : Word) : Word.ofBool (a == b) = if a = b then 1 else 0 := by
  by_cases h : a = b
  · exact (congrArg Word.ofBool (beq_iff_eq.2 h)).trans (if_pos h).symm
  · exact (congrArg Word.ofBool (beq_eq_false_iff_ne.2 h)).trans (if_neg h).symm

theorem ofBool_bne (a b : Word) : Word.ofBool (a != b) = if a = b then 0 else 1 := by
  by_cases h : a = b
  · exact (congrArg Word.ofBool (bne_eq_false_iff_eq.2 h)).trans (if_pos h).symm
  · exact (congrArg Word.ofBool (bne_iff_ne.2 h)).trans (if_neg h).symm

/-! ### Fields (R148, R149) -/

theorem extbWords_eq (a b : Word) : extbWords a b =
    (let x := (a >>> (8 * (b &&& 3#32).toNat)).setWidth 8
     if b.getLsbD 2 then x.signExtend 32 else x.zeroExtend 32) := by
  simp only [extbWords, toNat_and_3, BitVec.setWidth_ushiftRight_eq_extractLsb]

theorem exthWords_eq (a b : Word) : exthWords a b =
    (let x := (a >>> (16 * (b &&& 1#32).toNat)).setWidth 16
     if b.getLsbD 2 then x.signExtend 32 else x.zeroExtend 32) := by
  simp only [exthWords, toNat_and_1, BitVec.setWidth_ushiftRight_eq_extractLsb]

/-- The low `w` bits of a word, brought to its top and back under the sign. -/
theorem sshiftRight_shiftLeft_eq_signExtend (x : Word) (w : Nat) (h0 : 0 < w) (h : w ≤ 32) :
    (x <<< (32 - w)).sshiftRight (32 - w) = (x.setWidth w).signExtend 32 := by
  apply BitVec.eq_of_getLsbD_eq
  intro i hi
  simp only [BitVec.getLsbD_sshiftRight, BitVec.getLsbD_signExtend, BitVec.msb_eq_getLsbD_last, BitVec.getLsbD_shiftLeft,
    BitVec.getLsbD_setWidth]
  by_cases hw : i < w
  · have hin : 32 - w + i < 32 := by omega
    have habove : ¬ 32 - w + i < 32 - w := by omega
    simp only [hw, hi, hin, habove, Nat.not_le.2 hi, Nat.add_sub_cancel_left, if_true, decide_true, decide_false, Bool.not_false,
      Bool.true_and]
  · have hout : ¬ 32 - w + i < 32 := by omega
    have habove : ¬ 31 < 32 - w := by omega
    have htop : 31 - (32 - w) = w - 1 := by omega
    have hlast : w - 1 < w := by omega
    simp only [hw, hi, hout, habove, htop, hlast, Nat.not_le.2 hi, Nat.reduceSub, Nat.reduceLT, if_false, decide_true,
      decide_false, Bool.not_false, Bool.true_and]

/-- The low `w` bits of a word, brought to its top and back with zeros. -/
theorem ushiftRight_shiftLeft_eq_zeroExtend (x : Word) (w : Nat) (h : w ≤ 32) :
    (x <<< (32 - w)) >>> (32 - w) = (x.setWidth w).zeroExtend 32 := by
  apply BitVec.eq_of_getLsbD_eq
  intro i hi
  have hin : 32 - w + i < 32 ↔ i < w := by omega
  have habove : ¬ 32 - w + i < 32 - w := by omega
  simp only [BitVec.zeroExtend, BitVec.getLsbD_ushiftRight, BitVec.getLsbD_shiftLeft, BitVec.getLsbD_setWidth, hi, hin, habove,
    Nat.add_sub_cancel_left, decide_true, decide_false, Bool.not_false, Bool.true_and, Bool.and_true]

/-- The remainder by 2^w of the unsigned value is the low `w` bits. -/
theorem wrap_toNat_emod_two_pow (x : Word) (w : Nat) :
    Word.wrap ((x.toNat : Int) % 2 ^ w) = (x.setWidth w).zeroExtend 32 := by
  have hcast : (x.toNat : Int) % 2 ^ w = ((x.toNat % 2 ^ w : Nat) : Int) := by norm_cast
  apply BitVec.eq_of_toNat_eq
  rw [hcast, toNat_wrap_natCast, BitVec.toNat_setWidth, BitVec.toNat_setWidth]

/-- The balanced remainder by 2^w of the signed value is the low `w` bits under their sign. -/
theorem wrap_toInt_bmod_two_pow (x : Word) (w : Nat) (h : w ≤ 32) :
    Word.wrap (x.toInt.bmod (2 ^ w)) = (x.setWidth w).signExtend 32 := by
  rw [BitVec.signExtend, BitVec.toInt_setWidth, BitVec.toInt_eq_toNat_bmod, Int.bmod_bmod_of_dvd (Nat.pow_dvd_pow 2 h)]
  rfl

/-- W takes a number and its remainder by 2^32 to one word. -/
theorem wrap_emod_word (v : Int) : Word.wrap (v % 2 ^ 32) = Word.wrap v := by
  apply BitVec.eq_of_toNat_eq
  rw [Word.wrap, Word.wrap, BitVec.toNat_ofInt, BitVec.toNat_ofInt]
  omega

/-- BFX extends a narrow field under its sign by subtracting 2^w, which makes the remainder balanced. -/
theorem signedField_eq_bmod (v : Int) (w : Nat) (h : 0 < w) :
    (if 2 ^ (w - 1) ≤ v % 2 ^ w then v % 2 ^ w - 2 ^ w else v % 2 ^ w) = v.bmod (2 ^ w) := by
  obtain ⟨k, rfl⟩ : ∃ k, w = k + 1 := ⟨w - 1, by omega⟩
  have hpow : ((2 ^ (k + 1) : Nat) : Int) = 2 * 2 ^ k := by rw [Nat.pow_succ']; norm_cast
  have hhalf : ((2 * 2 ^ k + 1) / 2 : Int) = 2 ^ k := by omega
  rw [Int.bmod_def, hpow, hhalf, Int.pow_succ', Nat.add_sub_cancel, ← ite_not]
  simp only [Int.not_le]

theorem bfxWords_signed (a b : Word) (hs : b.getLsbD 10) :
    bfxWords a b = ((a.sshiftRight (bfPos b)).setWidth (bfWidth b)).signExtend 32 := by
  have hw := bfWidth_le b
  have hshift : a.toInt / 2 ^ bfPos b = (a.sshiftRight (bfPos b)).toInt := by
    rw [BitVec.toInt_sshiftRight, Int.shiftRight_eq_div_pow]
    norm_cast
  rw [← wrap_toInt_bmod_two_pow _ _ hw, ← hshift]
  simp only [bfxWords, hs, if_true, true_and]
  by_cases hnarrow : bfWidth b < 32
  · rw [← signedField_eq_bmod _ _ (bfWidth_pos b), apply_ite Word.wrap]
    simp only [hnarrow, true_and]
  · have hfull : bfWidth b = 32 := by omega
    simp only [hfull, Nat.lt_irrefl, false_and, if_false]
    rw [wrap_emod_word, hshift, BitVec.toInt_bmod_cancel]

theorem bfxWords_unsigned (a b : Word) (hs : ¬ b.getLsbD 10) :
    bfxWords a b = ((a >>> bfPos b).setWidth (bfWidth b)).zeroExtend 32 := by
  have hshift : (a.toNat : Int) / 2 ^ bfPos b = (a >>> bfPos b).toNat := by
    rw [BitVec.toNat_ushiftRight, Nat.shiftRight_eq_div_pow]
    norm_cast
  simp only [bfxWords, hs, if_false, false_and, hshift, wrap_toNat_emod_two_pow, Bool.false_eq_true]

theorem bfxWords_eq (a b : Word) : bfxWords a b =
    (let cut := 31 - ((b >>> 5) &&& 31#32).toNat
     let pos := (b &&& 31#32).toNat
     if b.getLsbD 10 then ((a.sshiftRight pos) <<< cut).sshiftRight cut else ((a >>> pos) <<< cut) >>> cut) := by
  have hcut : 31 - (b >>> 5 &&& 31#32).toNat = 32 - bfWidth b := by rw [bfWidth_eq]; omega
  simp only [hcut]
  simp only [← bfPos_eq, sshiftRight_shiftLeft_eq_signExtend _ _ (bfWidth_pos b) (bfWidth_le b),
    ushiftRight_shiftLeft_eq_zeroExtend _ _ (bfWidth_le b)]
  split
  next hs => exact bfxWords_signed a b hs
  next hs => exact bfxWords_unsigned a b hs

/-- A field of k + 1 one bits, from the all-ones word. -/
theorem wrap_two_pow_sub_one : ∀ k < 32, Word.wrap (2 ^ (k + 1) - 1) = 0xFFFFFFFF#32 >>> (31 - k) := by decide

theorem bfiWords_eq (a b c : Word) : bfiWords a b c =
    (let pos := (b &&& 31#32).toNat
     let m := (0xFFFFFFFF#32 >>> (31 - ((b >>> 5) &&& 31#32).toNat)) <<< pos
     (a &&& ~~~m) ||| ((c <<< pos) &&& m)) := by
  have hk : (b >>> 5 &&& 31#32).toNat < 32 := by rw [toNat_and_31]; omega
  simp only [bfiWords, wrap_mul_two_pow, wrap_toNat, bfWidth_eq, bfPos_eq, wrap_two_pow_sub_one _ hk]

/-! ### DOT4 (R169) -/

theorem wrap_byteInt (w : Word) (k : Nat) : Word.wrap (byteInt w k) = (w.extractLsb' (8 * k) 8).signExtend 32 := rfl

theorem dot4_eq (a b c : Word) : dot4 a b c =
    a + (b.extractLsb' 0 8).signExtend 32 * (c.extractLsb' 0 8).signExtend 32 +
      (b.extractLsb' 8 8).signExtend 32 * (c.extractLsb' 8 8).signExtend 32 +
      (b.extractLsb' 16 8).signExtend 32 * (c.extractLsb' 16 8).signExtend 32 +
      (b.extractLsb' 24 8).signExtend 32 * (c.extractLsb' 24 8).signExtend 32 := by
  simp only [dot4, wrap_add, wrap_mul, wrap_toInt, wrap_byteInt]

end Sys2Proof.Machine
end

section
/-!
SUPPORT. The integer instructions as one family (O1): each performs the shared integer operation on the rule that its
statement gives.
-/

open Sys2Proof.Claims

namespace Sys2Proof.Machine

/-- An operation that agrees with the rule of an instruction on every operand makes the same instruction. -/
theorem integerOp_of_rule {i : Instr} {s : State} {op r₀ r : Word → Word → Word → Word} (h : some r₀ = some r)
    (hwords : ∀ a b c, op a b c = r₀ a b c) : integerOp i op s = integerOp i r s := by
  have hop : op = r₀ := funext fun a => funext fun b => funext fun c => hwords a b c
  rw [hop, Option.some.inj h]

/-- The dispatch and the words of each instruction: an integer instruction is the integer operation on its rule. -/
theorem exec_eq_integerOp {i : Instr} {r : Word → Word → Word → Word} (h : integerRule i = some r) (s : State) :
    exec i s = integerOp i r s := by
  cases i with
  | add _ => exact integerOp_of_rule h fun a b _ => addWords_eq a b
  | sub _ => exact integerOp_of_rule h fun a b _ => subWords_eq a b
  | adds _ => exact integerOp_of_rule h fun a b _ => addsWords_eq a b
  | subs _ => exact integerOp_of_rule h fun a b _ => subsWords_eq a b
  | addus _ => exact integerOp_of_rule h fun a b _ => addusWords_eq a b
  | subus _ => exact integerOp_of_rule h fun a b _ => subusWords_eq a b
  | mul _ => exact integerOp_of_rule h fun a b _ => mulWords_eq a b
  | mulh _ => exact integerOp_of_rule h fun a b _ => mulhWords_eq a b
  | mulhu _ => exact integerOp_of_rule h fun a b _ => mulhuWords_eq a b
  | muladd _ => exact integerOp_of_rule h muladdWords_eq
  | div _ => exact integerOp_of_rule h fun a b _ => divWords_eq a b
  | divu _ => exact integerOp_of_rule h fun a b _ => divuWords_eq a b
  | rem _ => exact integerOp_of_rule h fun a b _ => remWords_eq a b
  | remu _ => exact integerOp_of_rule h fun a b _ => remuWords_eq a b
  | and _ | or _ | xor _ | andn _ | brev _ | tlt _ | tle _ | tltu _ | tleu _ => cases h; rfl
  | shl _ => exact integerOp_of_rule h fun a b _ => shlWords_eq a b
  | shr _ => exact integerOp_of_rule h fun a b _ => shrWords_eq a b
  | sar _ => exact integerOp_of_rule h fun a b _ => sarWords_eq a b
  | rol _ => exact integerOp_of_rule h fun a b _ => rolWords_eq a b
  | clz _ => exact integerOp_of_rule h fun a _ _ => clzWord_eq a
  | ctz _ => exact integerOp_of_rule h fun a _ _ => ctzWord_eq a
  | popc _ => exact integerOp_of_rule h fun a _ _ => popcWord_eq a
  | min _ => exact integerOp_of_rule h fun a b _ => minWords_eq a b
  | max _ => exact integerOp_of_rule h fun a b _ => maxWords_eq a b
  | minu _ => exact integerOp_of_rule h fun a b _ => minuWords_eq a b
  | maxu _ => exact integerOp_of_rule h fun a b _ => maxuWords_eq a b
  | abs _ => exact integerOp_of_rule h fun a _ _ => absWord_eq a
  | neg _ => exact integerOp_of_rule h fun a _ _ => negWord_eq a
  | extb _ => exact integerOp_of_rule h fun a b _ => extbWords_eq a b
  | exth _ => exact integerOp_of_rule h fun a b _ => exthWords_eq a b
  | bfx _ => exact integerOp_of_rule h fun a b _ => bfxWords_eq a b
  | bfi _ => exact integerOp_of_rule h bfiWords_eq
  | teq _ => exact integerOp_of_rule h fun a b _ => ofBool_beq a b
  | tne _ => exact integerOp_of_rule h fun a b _ => ofBool_bne a b
  | dot4 _ => exact integerOp_of_rule h dot4_eq
  | _ => cases h

/-- Settles O1: every integer instruction is the integer operation on its rule, which in store mode leaves the rule's words;
how many words fire at one step is bounded by the words that are left. -/
theorem integerResults : Obligations.IntegerResults := by
  unfold Obligations.IntegerResults
  refine ⟨fun i r s g t hrule hfires => ?_, wordsNow_bounds⟩
  rw [exec_eq_integerOp hrule, integerOp_store i r s g t hfires]

end Sys2Proof.Machine
end

section
/-!
SUPPORT. What a set leaves that forwards or forms one word for each of its words, in store mode (R181): the word loop counts
every word and changes nothing else, and the results leave after it.
-/

open Sys2Proof.Claims

namespace Sys2Proof.Machine

/-! ### A set in store mode -/

theorem staysLive_of_fires {s : State} {g : Firing} {t : Task} (h : Fires s g t) : StaysLive g t s := by
  obtain ⟨-, htask, hstore⟩ := h
  exact ⟨t, htask, hstore, rfl, rfl⟩

theorem task?_of_fires {s : State} {g : Firing} {t : Task} (h : Fires s g t) : s.task? g.task = some t := by
  obtain ⟨-, htask, -⟩ := h
  exact htask

/-- The set being fired is the one that an instruction acts on. -/
theorem withFiring_of_fires {s : State} {g : Firing} {t : Task} (h : Fires s g t) (k : Firing → State → State) :
    withFiring s k = .next (k g s) := by
  obtain ⟨hfiring, -, -⟩ := h
  rw [withFiring, hfiring]

theorem nullStep_live {g : Firing} {t : Task} {s : State} (h : StaysLive g t s) :
    nullStep g s = .ok (s.countFire g.task (t.domainOf g.site), .null) := by
  rw [nullStep, fireWord_live h]

theorem forwardStep_live {g : Firing} {t : Task} {s : State} (h : StaysLive g t s) (i : Instr) (out : Nat → Out) (j : Nat) :
    forwardStep i g out j s =
      .ok (s.countFire g.task (t.domainOf g.site), if performs i g j then out j else .null) := by
  unfold forwardStep
  split
  · rw [fireWord_live h]
  · exact nullStep_live h

/-- A word loop whose words only count, each with its result. -/
theorem wordLoop_counted {f : WordStep} {out : Nat → Out} {s : State} {g : Firing} {t : Task} (h : StaysLive g t s)
    (hf : ∀ j s, StaysLive g t s → f j s = .ok (s.countFire g.task (t.domainOf g.site), out j)) :
    wordLoop f s 0 g.n = .ok (counted s g t, (List.range g.n).map out) := by
  rw [wordLoop_ok f _ out (StaysLive g t) hf (fun _ _ => StaysLive_countFire) g.n 0 s h, ← List.range_eq_range', counted]

/-! ### Forwarding word by word -/

/-- What a set leaves whose performing words leave `out` and whose other words a NULL word, counted and nothing else. -/
def forwarded (i : Instr) (g : Firing) (t : Task) (out : Nat → Out) (s : State) : State :=
  emitted i g (fun j => if performs i g j then out j else .null) (counted s g t)

theorem forwardWords_eq_forwarded {s : State} {g : Firing} {t : Task} (h : Fires s g t) (i : Instr) (out : Nat → Out) :
    emitResult i g (wordLoop (forwardStep i g out) s 0 g.n) = forwarded i g t out s := by
  rw [wordLoop_counted (staysLive_of_fires h) fun j _ hs => forwardStep_live hs i out j]
  rfl

/-- A port whose token is no control token to forward whole gives its words one by one. -/
theorem forwardFiring_words {s : State} {g : Firing} {t : Task} {tok : Option Token} (h : Fires s g t)
    (htok : controlToken tok = none) (i : Instr) (port : Nat) :
    forwardFiring i port tok g s = forwarded i g t (operand i g port) s := by
  rw [forwardFiring, htok]
  exact forwardWords_eq_forwarded h i _

/-! ### Forwarding a control token whole (R182) -/

theorem forwardFiring_control {s : State} {g : Firing} {t : Task} {tok : Option Token} {k : Token} (h : Fires s g t)
    (htok : controlToken tok = some k) (i : Instr) (port : Nat) (hnull : anyNull i g 0 = false)
    (hpred : predicateFalse i g 0 = false) :
    forwardFiring i port tok g s = (s.countFire g.task (t.domainOf g.site)).emitControl g i.fields.tact g.tag
      [i.fields.t0, i.fields.t1] 7 k.words := by
  have hperforms : ¬(predicateFalse i g 0 || anyNull i g 0) = true := by rw [hpred, hnull]; decide
  rw [forwardFiring, htok]
  simp only [forwardControl, if_neg hperforms, fireWord_live (staysLive_of_fires h), id]

end Sys2Proof.Machine
end

section
/-!
SUPPORT. MOV, NULL, ITERV, CTXV, WORKID and READ as one family (O3): each forwards the words of the rule that its statement
gives.
-/

open Sys2Proof.Claims

namespace Sys2Proof.Machine

/-! ### The words of the rules -/

/-- ITERV's word (R183, R211): the iteration wraps at 4,096. -/
theorem iteration_zeroExtend (iter : BitVec 12) (j : Nat) :
    (iter + BitVec.ofNat 12 j).zeroExtend 32 = BitVec.ofNat 32 ((iter.toNat + j) % 4096) := by
  rw [BitVec.zeroExtend, ← BitVec.ofNat_toNat, BitVec.toNat_add, BitVec.toNat_ofNat, Nat.add_mod_mod]

/-- CTXV's word. -/
theorem context_zeroExtend (ctx : BitVec 12) : ctx.zeroExtend 32 = BitVec.ofNat 32 ctx.toNat := by
  rw [BitVec.zeroExtend, BitVec.ofNat_toNat]

/-- WORKID's literal names a field of the work identifier by its low three bits (R212). -/
theorem bits_2_0 (w : Word) : bits w 2 0 = (w.extractLsb' 0 3).toNat := by
  rw [BitVec.extractLsb'_toNat, Nat.shiftRight_zero, bits, Nat.pow_zero, Nat.div_one]

/-- A field of the work identifier stands below the fields before it (R323). -/
theorem widField_eq (widths : List Nat) (k : Nat) (wid : BitVec 64) :
    widField widths k wid =
      wid.toNat / 2 ^ (64 - ((widths.take k).sum + widths.getD k 0)) % 2 ^ widths.getD k 0 := by
  rw [widField, Nat.sub_sub]

/-! ### The instructions -/

theorem execMov_words {s : State} {g : Firing} {t : Task} (h : Fires s g t) (hctl : controlToken g.a = none) (f : StdForm) :
    execMov f s = .next (forwarded (.mov f) g t (operand (.mov f) g 0) s) := by
  rw [execMov, withFiring_of_fires h, forwardFiring_words h hctl]

theorem execNullTok_words {s : State} {g : Firing} {t : Task} (h : Fires s g t) (f : StdForm) :
    execNullTok f s = .next (forwarded (.nullTok f) g t (fun _ => .null) s) := by
  rw [execNullTok, withFiring_of_fires h, forwardWords_eq_forwarded h]

theorem execIterv_words {s : State} {g : Firing} {t : Task} (h : Fires s g t) (f : StdForm) :
    execIterv f s = .next (forwarded (.iterv f) g t
      (fun j => .data 0 (BitVec.ofNat 32 ((g.tag.iter.toNat + j) % 4096))) s) := by
  rw [execIterv, withFiring_of_fires h, forwardWords_eq_forwarded h]
  simp only [iteration_zeroExtend]

theorem execCtxv_words {s : State} {g : Firing} {t : Task} (h : Fires s g t) (f : StdForm) :
    execCtxv f s = .next (forwarded (.ctxv f) g t (fun _ => .data 0 (BitVec.ofNat 32 g.tag.ctx.toNat)) s) := by
  rw [execCtxv, withFiring_of_fires h, forwardWords_eq_forwarded h, context_zeroExtend]

theorem execWorkid_words {s : State} {g : Firing} {t : Task} {c : Context} (h : Fires s g t)
    (hctx : t.context? g.tag.ctx = some c) (f : StdForm) :
    execWorkid f s = .next (forwarded (.workid f) g t (fun _ => .data 0 (BitVec.ofNat 32
      (if f.lit.getLsbD 3 then widField t.tcb.widths (bits f.lit 2 0) c.wid / 2 ^ 32
       else widField t.tcb.widths (bits f.lit 2 0) c.wid))) s) := by
  rw [execWorkid, withFiring_of_fires h, ← forwardWords_eq_forwarded h]
  simp only [task?_of_fires h, hctx]

theorem execRead_words {s : State} {g : Firing} {t : Task} {c : Context} (h : Fires s g t)
    (hctx : t.context? g.tag.ctx = some c) (f : RwForm) (hwaits : Claims.readWaits (.read f) s g t = false) :
    execRead f s = .next (forwarded (.read f) g t (fun _ => c.frameWord f.fw) s) := by
  have hany : ((List.range g.n).any fun j => s.readWaits t f.fw g j) = false := hwaits
  rw [execRead, withFiring_of_fires h, ← forwardWords_eq_forwarded h]
  simp only [task?_of_fires h, hctx, hany, Bool.false_eq_true, if_false]

/-- READ waits whatever the task's mode: no debit is made. -/
theorem execRead_waits {s : State} {g : Firing} {t : Task} (hfiring : s.firing? = some g) (htask : s.task? g.task = some t)
    (f : RwForm) (hwaits : Claims.readWaits (.read f) s g t = true) : execRead f s = .next s.block := by
  have hany : ((List.range g.n).any fun j => s.readWaits t f.fw g j) = true := hwaits
  simp only [execRead, withFiring, hfiring, htask, hany, if_true]

/-! ### The family -/

/-- Forwarding the words of a rule is forwarding what the rule answers. -/
theorem next_forwarded_of_rule {i : Instr} {s : State} {g : Firing} {t : Task} {words out : Nat → Out}
    (h : some words = some out) : (.next (forwarded i g t words s) : Result) = .next (forwarded i g t out s) := by
  rw [Option.some.inj h]

/-- An instruction with a forwarding rule leaves the words of its rule. -/
theorem exec_eq_forwarded {i : Instr} {out : Nat → Out} {s : State} {g : Firing} {t : Task} {c : Context}
    (hrule : forwardRule i g t c = some out) (h : Fires s g t) (hctx : t.context? g.tag.ctx = some c)
    (hmov : (∃ f, i = .mov f) → controlToken g.a = none) (hwaits : Claims.readWaits i s g t = false) :
    exec i s = .next (forwarded i g t out s) := by
  cases i with
  | mov f => exact (execMov_words h (hmov ⟨f, rfl⟩) f).trans (next_forwarded_of_rule hrule)
  | nullTok f => exact (execNullTok_words h f).trans (next_forwarded_of_rule hrule)
  | iterv f => exact (execIterv_words h f).trans (next_forwarded_of_rule hrule)
  | ctxv f => exact (execCtxv_words h f).trans (next_forwarded_of_rule hrule)
  | workid f =>
    rw [← next_forwarded_of_rule hrule]
    refine (execWorkid_words h hctx f).trans ?_
    rw [bits_2_0, widField_eq]
  | read f => exact (execRead_words h hctx f hwaits).trans (next_forwarded_of_rule hrule)
  | _ => cases hrule

/-- Settles O3: a forwarding instruction leaves the words of its rule, and a READ that must wait puts its set back. -/
theorem wordsForwarded : Obligations.WordsForwarded := by
  unfold Obligations.WordsForwarded
  refine ⟨fun i out s g t c hrule hfires hctx hmov hwaits => exec_eq_forwarded hrule hfires hctx hmov hwaits,
    fun f s g t k hcur htask hwaits => ?_⟩
  have hfiring : s.firing? = some g := by rw [State.firing?, hcur]
  have hblock : exec (.read f) s = .next s.block := execRead_waits hfiring htask f hwaits
  rw [hblock, State.block, hcur]

end Sys2Proof.Machine
end

section
/-!
SUPPORT. Routing (O4): MERGE and PMARK forward their words, STEER sends each word down one of two arms, and a control token
other than NULL leaves whole.
-/

open Sys2Proof.Claims

namespace Sys2Proof.Machine

/-! ### MOV and MERGE (R182, R186) -/

theorem execMov_control {s : State} {g : Firing} {t : Task} {k : Token} (h : Fires s g t) (hctl : controlToken g.a = some k)
    (f : StdForm) (hnull : anyNull (.mov f) g 0 = false) (hpred : predicateFalse (.mov f) g 0 = false) :
    execMov f s = .next ((s.countFire g.task (t.domainOf g.site)).emitControl g f.tact g.tag [f.t0, f.t1] 7 k.words) := by
  rw [execMov, withFiring_of_fires h, forwardFiring_control h hctl (.mov f) 0 hnull hpred]
  rfl

/-- MERGE forwards the token of port A where there is one. -/
theorem execMerge_portA {s : State} {g : Firing} {t : Task} (h : Fires s g t) (ha : g.a.isSome) (f : StdForm) :
    execMerge f s = .next (forwardFiring (.merge f) 0 g.a g s) := by
  rw [execMerge, withFiring_of_fires h, if_pos ha]

/-- MERGE forwards the token of port B where port A has none. -/
theorem execMerge_portB {s : State} {g : Firing} {t : Task} (h : Fires s g t) (ha : g.a = none) (f : StdForm) :
    execMerge f s = .next (forwardFiring (.merge f) 1 g.b g s) := by
  have hnone : ¬g.a.isSome := by rw [ha]; decide
  rw [execMerge, withFiring_of_fires h, if_neg hnone]

/-- Only a token that is there is a control token. -/
theorem isSome_of_controlToken {tok : Option Token} {k : Token} (h : controlToken tok = some k) : tok.isSome := by
  cases tok with
  | none => cases h
  | some _ => rfl

theorem execMerge_control {s : State} {g : Firing} {t : Task} {k : Token} (h : Fires s g t) (hctl : controlToken g.a = some k)
    (f : StdForm) (hnull : anyNull (.merge f) g 0 = false) (hpred : predicateFalse (.merge f) g 0 = false) :
    execMerge f s = .next ((s.countFire g.task (t.domainOf g.site)).emitControl g f.tact g.tag [f.t0, f.t1] 7 k.words) := by
  rw [execMerge_portA h (isSome_of_controlToken hctl), forwardFiring_control h hctl (.merge f) 0 hnull hpred]
  rfl

/-! ### PMARK (R213) -/

theorem StaysLive_mark {g : Firing} {t : Task} {s : State} (h : StaysLive g t s) : StaysLive g t (s.mark g.task) := by
  obtain ⟨u, htask, hstore, hquads, hhoop⟩ := h
  refine ⟨{ u with marks := u.marks + 1 }, ?_, hstore, hquads, hhoop⟩
  rw [State.mark, State.withTask_task?, htask, Option.map_some]
  exact fun _ => rfl

/-- What word `j` of PMARK does to the state: it is counted, and it adds a mark where it performs. -/
def marked (f : StdForm) (g : Firing) (t : Task) (s : State) (j : Nat) : State :=
  let s1 := s.countFire g.task (t.domainOf g.site)
  if performs (.pmark f) g j then s1.mark g.task else s1

theorem StaysLive_marked {g : Firing} {t : Task} {s : State} (f : StdForm) (j : Nat) (h : StaysLive g t s) :
    StaysLive g t (marked f g t s j) := by
  unfold marked
  split
  · exact StaysLive_mark (StaysLive_countFire h)
  · exact StaysLive_countFire h

theorem execPmark_words {s : State} {g : Firing} {t : Task} (h : Fires s g t) (hctl : controlToken g.a = none) (f : StdForm) :
    execPmark f s = .next (emitted (.pmark f) g
      (fun j => if performs (.pmark f) g j then operand (.pmark f) g 0 j else .null)
      ((List.range g.n).foldl (marked f g t) s)) := by
  rw [execPmark, withFiring_of_fires h, hctl, List.range_eq_range']
  simp only
  rw [wordLoop_ok _ (fun j s => marked f g t s j) (fun j => if performs (.pmark f) g j then operand (.pmark f) g 0 j else .null)
    (StaysLive g t) _ (fun j _ => StaysLive_marked f j) g.n 0 s (staysLive_of_fires h), ← List.range_eq_range']
  · rfl
  · intro j s hs
    rw [forwardStep_live hs]
    rfl

/-! ### STEER (R185) -/

/-- The tag of an arm carries a pushed bit where the literal asks for it and the path has room. -/
theorem steerTag_eq_armTag (f : StdForm) (tag : Tag) (bit : Bool) : steerTag f tag bit = armTag f tag bit := by
  unfold steerTag Tag.push armTag
  by_cases hpush : f.lit.getLsbD 0 <;> simp only [hpush, true_and, false_and, if_true, if_false, Bool.false_eq_true]

theorem isNull_iff (o : Out) : o.isNull = true ↔ o = .null := by
  cases o <;> simp only [Out.isNull, reduceCtorEq]

/-- An operand that is absent is no NULL word. -/
theorem operand_absent_isNull (f : StdForm) (g : Firing) (j : Nat) (hb : g.b = none) (hp : g.p = none) :
    (operand (.steer f) g 1 j).isNull = false ∧ (operand (.steer f) g 3 j).isNull = false := by
  constructor
  · unfold operand
    rw [hb]
    simp only
    split <;> rfl
  · unfold operand
    rw [hp]
    rfl

theorem anyNull_steer (f : StdForm) (g : Firing) (j : Nat) (hb : g.b = none) (hp : g.p = none) :
    anyNull (.steer f) g j = ((operand (.steer f) g 0 j).isNull || (operand (.steer f) g 2 j).isNull) := by
  obtain ⟨hportB, hportP⟩ := operand_absent_isNull f g j hb hp
  rw [anyNull, hportB, hportP, Bool.or_false, Bool.or_false]

/-- The word that STEER sends down an arm. -/
def armWord (f : StdForm) (g : Firing) (arm : Arm) (j : Nat) : Out :=
  match steerArm f g j with
  | .both => .null
  | a => if a = arm then operand (.steer f) g 0 j else .none

theorem steered_eq_armWords (f : StdForm) (g : Firing) (j : Nat) (hb : g.b = none) (hp : g.p = none) :
    steered f g j = (armWord f g .t0 j, armWord f g .t1 j) := by
  unfold armWord steerArm steered
  rw [anyNull_steer f g j hb hp]
  split
  · next hA => simp only [hA, Out.isNull, Bool.true_or, if_true]
  · next hC _ => simp only [hC, Out.isNull, Bool.or_true, if_true]
  · next hA hC =>
    have hperforms : ¬((operand (.steer f) g 0 j).isNull || (operand (.steer f) g 2 j).isNull) = true := by
      rw [Bool.or_eq_true, isNull_iff, isNull_iff]
      exact not_or.2 ⟨hA, hC⟩
    rw [if_neg hperforms]
    split <;> rfl

/-- The words of a set of STEER are counted; they leave by its arms, those of t0 first. -/
theorem execSteer_words {s : State} {g : Firing} {t : Task} (h : Fires s g t) (hctl : controlToken g.a = none) (f : StdForm) :
    execSteer f s = .next ((counted s g t).emitArms f g (steerOuts f g .t0) (steerOuts f g .t1)) := by
  rw [execSteer, withFiring_of_fires h, hctl]
  simp only
  rw [wordLoop_counted (out := fun _ => .null) (staysLive_of_fires h) fun _ _ => nullStep_live]

/-- A control token that forms a set alone goes down both arms (R286). -/
theorem execSteer_control {s : State} {g : Firing} {t : Task} {k : Token} (h : Fires s g t) (hctl : controlToken g.a = some k)
    (hc : g.c = none) (f : StdForm) :
    execSteer f s = .next ((s.countFire g.task (t.domainOf g.site)).steerControl f g k true true) := by
  rw [execSteer, withFiring_of_fires h, hctl]
  simp only [fireWord_live (staysLive_of_fires h), hc, Option.isNone_none, if_true]

/-! ### The family -/

/-- Settles O4: MERGE and PMARK forward word by word, a control token leaves whole, and STEER sends each word down its arm. -/
theorem tokensRouted : Obligations.TokensRouted := by
  unfold Obligations.TokensRouted
  refine ⟨⟨?mergeA, ?mergeB, ?pmark⟩, ?control, ?steer⟩
  case mergeA =>
    intro f s g t h ha hctl
    exact (execMerge_portA h ha f).trans (congrArg _ (forwardFiring_words h hctl _ 0))
  case mergeB =>
    intro f s g t h ha hctl
    exact (execMerge_portB h ha f).trans (congrArg _ (forwardFiring_words h hctl _ 1))
  case pmark => exact fun f s g t h hctl => execPmark_words h hctl f
  case control =>
    refine fun f s g t k h hctl => ⟨execMov_control h hctl f, execMerge_control h hctl f, fun hc => ?_⟩
    refine (execSteer_control h hctl hc f).trans (congrArg _ ?_)
    simp only [State.steerControl, steerTag_eq_armTag, if_true]
  case steer =>
    intro f s g t h hctl hb hp
    refine (execSteer_words h hctl f).trans (congrArg _ ?_)
    simp only [State.emitArms, steerTag_eq_armTag, steered_eq_armWords f g _ hb hp]
    rfl

end Sys2Proof.Machine
end

section
/-!
SUPPORT. The join engine of a tower under an update, and a field of a word as its extracted bits: what the commands of the
reward join engine read and leave (O50).
-/

open Sys2Proof.Claims

namespace Sys2Proof.Machine

/-! ### The fields of a control word -/

/-- Bits [hi:lo] of a word are the word extracted there. -/
theorem bits_eq_extract (w : Word) (hi lo : Nat) : bits w hi lo = (w.extractLsb' lo (hi + 1 - lo)).toNat := by
  rw [BitVec.extractLsb'_toNat, Nat.shiftRight_eq_div_pow, bits]

theorem bitsZero_iff (w : Word) (hi lo : Nat) : bitsZero w hi lo = true ↔ w.extractLsb' lo (hi + 1 - lo) = 0 := by
  rw [bitsZero, beq_iff_eq, bits_eq_extract, BitVec.toNat_eq]
  rfl

/-! ### The join engine under an update -/

/-- A tower that is not there reads as a reset one, and no update changes it. -/
theorem State.withJoin_join (s : State) (k : Nat) (f : JoinEngine → JoinEngine) :
    ((s.withJoin k f).tower k).join = if k < s.towers.length then f (s.tower k).join else (s.tower k).join := by
  split
  case isTrue h => simp [State.withJoin, State.withTower, State.tower, List.getD_eq_getElem?_getD, h]
  case isFalse h => simp [State.withJoin, State.withTower, State.tower, List.getD_eq_getElem?_getD, Nat.not_lt.1 h]

/-- A part of the join engine that an update keeps. -/
theorem State.withJoin_keeps {α : Type} (s : State) (k : Nat) (f : JoinEngine → JoinEngine) (p : JoinEngine → α)
    (hf : ∀ e, p (f e) = p e) : p ((s.withJoin k f).tower k).join = p (s.tower k).join := by
  rw [s.withJoin_join k f]
  split
  · exact hf _
  · rfl

theorem State.withJoin_episode? (s : State) (k n : Nat) (f : JoinEngine → JoinEngine) (hf : ∀ e, (f e).episodes = e.episodes) :
    (s.withJoin k f).episode? k n = s.episode? k n := by
  rw [State.episode?, s.withJoin_keeps k f (·.episodes) hf, State.episode?]

/-- An update of an entry that keeps its number is found under that number. -/
theorem State.withEpisode_episode? (s : State) (k n : Nat) (f : Episode → Episode) (hf : ∀ y, (f y).entry = y.entry) (y : Episode)
    (hy : s.episode? k n = some y) : (s.withEpisode k n f).episode? k n = some (f y) := by
  have hentry : y.entry = n := by simpa using List.find?_some hy
  have hk : k < s.towers.length := Nat.lt_of_not_le fun hlen => by
    have hreset : s.tower k = Tower.reset := by
      rw [State.tower, List.getD_eq_getElem?_getD, List.getElem?_eq_none hlen, Option.getD_none]
    rw [State.episode?, hreset] at hy
    cases hy
  rw [State.episode?] at hy
  rw [State.episode?, State.withEpisode, State.withJoin_join, if_pos hk, find_modifyWhere _ _ f (fun y => by rw [hf]), hy]
  simp only [Option.map_some, hentry, beq_self_eq_true, if_true]

theorem State.joinCount_episode? (s : State) (k n count : Nat) (c : JoinCounter) : (s.joinCount k c count).episode? k n = s.episode? k n :=
  s.withJoin_episode? k n _ fun _ => rfl

/-! ### The reward slots under an update (R436) -/

/-- The update leaves the store of the engine where it is. -/
def KeepsStore (f : JoinEngine → JoinEngine) : Prop :=
  ∀ e, (f e).asid = e.asid ∧ (f e).base = e.base ∧ (f e).logl = e.logl

@[simp] theorem State.withJoin_readEntry (s : State) (k : Nat) (f : JoinEngine → JoinEngine) (a : Nat) :
    (s.withJoin k f).readEntry a = s.readEntry a := rfl

@[simp] theorem State.withJoin_wordAt (s : State) (k : Nat) (f : JoinEngine → JoinEngine) (a : Nat) :
    (s.withJoin k f).wordAt a = s.wordAt a := rfl

theorem State.withJoin_walkFrom (s : State) (k : Nat) (f : JoinEngine → JoinEngine) (va : Nat) (fuel table level : Nat) :
    (s.withJoin k f).walkFrom va table level fuel = s.walkFrom va table level fuel := by
  induction fuel generalizing table level with
  | zero => rfl
  | succ fuel ih => rw [State.walkFrom, State.withJoin_readEntry, ih, State.walkFrom]

theorem State.withJoin_translate (s : State) (k : Nat) (f : JoinEngine → JoinEngine) (asid : BitVec 16) (va : Nat) (write : Bool)
    (key : Option (BitVec 12)) : (s.withJoin k f).translate asid va write key = s.translate asid va write key := by
  have hroot : (s.withJoin k f).rootBase = s.rootBase := rfl
  simp only [State.translate, State.walk, State.withJoin_walkFrom, State.withJoin_readEntry, hroot]

theorem State.withJoin_recordPa (s : State) (k : Nat) {f : JoinEngine → JoinEngine} (hf : KeepsStore f) (n t w : Nat) (write : Bool) :
    (s.withJoin k f).recordPa k n t w write = s.recordPa k n t w write := by
  have hva : ((s.withJoin k f).tower k).join.recordVa n t w = (s.tower k).join.recordVa n t w :=
    s.withJoin_keeps k f (·.recordVa n t w) fun e => by
      obtain ⟨-, hbase, hlogl⟩ := hf e
      simp only [JoinEngine.recordVa, hbase, hlogl]
  have hasid : ((s.withJoin k f).tower k).join.asid = (s.tower k).join.asid :=
    s.withJoin_keeps k f (·.asid) fun e => (hf e).1
  rw [State.recordPa, hva, hasid, State.withJoin_translate, State.recordPa]

theorem State.withJoin_slotViews (s : State) (k : Nat) {f : JoinEngine → JoinEngine} (hf : KeepsStore f) (n t count : Nat) :
    (s.withJoin k f).slotViews k n t count = s.slotViews k n t count := by
  induction count generalizing t with
  | zero => rfl
  | succ count ih => simp only [State.slotViews, State.withJoin_recordPa s k hf, State.withJoin_wordAt, ih]

theorem State.joinCount_slotViews (s : State) (k n t count m : Nat) (c : JoinCounter) :
    (s.joinCount k c m).slotViews k n t count = s.slotViews k n t count := by
  rw [State.joinCount]
  exact s.withJoin_slotViews k (by exact fun _ => ⟨rfl, rfl, rfl⟩) n t count

theorem State.withEpisode_slotViews (s : State) (k entry : Nat) (f : Episode → Episode) (n t count : Nat) :
    (s.withEpisode k entry f).slotViews k n t count = s.slotViews k n t count := by
  rw [State.withEpisode]
  exact s.withJoin_slotViews k (by exact fun _ => ⟨rfl, rfl, rfl⟩) n t count

end Sys2Proof.Machine
end

section
/-!
SUPPORT. The commands of the reward join engine (O50), each from the engine port to what it answers (R438, R439, R442 to R444,
R452).
-/

open Sys2Proof.Claims

namespace Sys2Proof.Machine

/-! ### The port (R440) -/

/-- The commands that the port hands to the reward join engine. -/
def toJoinEngine : Instr → Bool
  | .epopen _ | .epstep _ | .epend _ | .rwsend _ | .jcfg _ | .lvset _ | .jstat _ => true
  | _ => false

/-- What a command that performs at once answers, and the state it leaves. -/
def joinAnswer (s : State) (id : Nat) (t : Task) (o : OpRec) (j : Nat) : Instr → Option (Word × State)
  | .epopen _ => some (s.openEpisode id t o.firing.tag.ctx (operand o.instr o.firing 0 j).word
      (operand o.instr o.firing 1 j).word (operand o.instr o.firing 2 j).word)
  | .epstep _ => some (s.appendStep id t o.firing.tag.ctx (operand o.instr o.firing 0 j).word
      (operand o.instr o.firing 1 j).word (operand o.instr o.firing 2 j).word)
  | .epend _ => some (s.closeEpisode id t o.firing.tag.ctx (operand o.instr o.firing 0 j).word
      (operand o.instr o.firing 1 j).word)
  | .lvset _ => some (s.setVersion t (operand o.instr o.firing 0 j).word)
  | .jstat _ => some (s.joinStat t (operand o.instr o.firing 0 j).word)
  | _ => none

theorem task?_of_at {s : State} {id op j : Nat} {st : OpStage} {t : Task} {o : OpRec} (h : At s id op j st t o) :
    s.task? id = some t := by
  obtain ⟨hop, -⟩ := h
  obtain ⟨u, hu, hmap⟩ := Option.bind_eq_some_iff.1 hop
  obtain ⟨r, -, hr⟩ := Option.map_eq_some_iff.1 hmap
  cases hr
  exact hu

/-- A command of the engine leaves the port and goes to the engine of its tower. -/
theorem exec_depart {s : State} {id op j : Nat} {t : Task} {o : OpRec} (h : Departs s id op j t o)
    (hfrozen : (s.engine t.tower 3).frozen = .none) {i : Instr} (hi : o.instr = i) (hjoin : toJoinEngine i = true) :
    exec (.enginePortDepart id op j) s = .next (s.departReward id t o j) := by
  obtain ⟨⟨hop, hstage, -, hrun, hphase, -⟩, hbase, hport⟩ := h
  have hgoes : ¬(t.halted || !t.isBase (o.firing.instAt j) || decide (32 ≤ s.portUsed t.hoop)) = true := by
    simp [Task.halted, hrun, hphase, hbase, hport]
  have hwarm : ¬((s.engine t.tower 3).frozen != .none) = true := by rw [hfrozen]; decide
  show execEnginePortDepart id op j s = _
  rw [execEnginePortDepart, State.onWord, hop]
  simp only [hstage, if_true, if_neg hgoes, if_neg hwarm, hi]
  cases i with
  | epopen _ | epstep _ | epend _ | rwsend _ | jcfg _ | lvset _ | jstat _ => rfl
  | _ => cases hjoin

/-- The line that a reward command debits is no debit in store mode (R359). -/
theorem debitLines_of_at {s : State} {id op j : Nat} {st : OpStage} {t : Task} {o : OpRec} (h : At s id op j st t o)
    (dom : Nat) (c : LineClass) (n : Nat) : s.debitLines o.firing dom c n = .ok s := by
  have htask := task?_of_at h
  obtain ⟨-, -, -, -, -, hstore, -, -, hfiring⟩ := h
  exact State.debitLines_store s o.firing dom c n t (by rw [hfiring, htask]) hstore

/-- A command that performs at once emits its answer. -/
theorem exec_joinAnswer {s : State} {id op j : Nat} {t : Task} {o : OpRec} (h : Departs s id op j t o)
    (hfrozen : (s.engine t.tower 3).frozen = .none) {i : Instr} (hi : o.instr = i) {x : Word × State}
    (hx : joinAnswer s id t o j i = some x) {r : Word} {s1 : State} (hr : x = (r, s1)) :
    exec (.enginePortDepart id op j) s = .next (s1.completeCommand id o j (.data 0 r) (.data 0 r)) := by
  have hat := h.1
  subst hr
  cases i with
  | epopen f | epstep f | epend f | lvset f | jstat f =>
    rw [exec_depart h hfrozen hi rfl, State.departReward, hi]
    simp only [rewardLine, debitLines_of_at hat]
    rw [← hi, Option.some.inj hx]
  | _ => cases hx

/-! ### EPOPEN (R442) -/

section
variable {s : State} {id : Nat} {t : Task} {ctx : BitVec 12} {a b c : Word}

/-- The engine of tower `k` serves the tasks of an address space. -/
def Serves (s : State) (k : Nat) (asid : BitVec 16) : Prop :=
  (s.tower k).join.en = true ∧ (s.tower k).join.configured = true ∧ (s.tower k).join.asid = asid

/-- The id in an A and a B word is one that tower `k` of this node opens (R437), and the reserved bits are zero. -/
def OpensHere (s : State) (k : Nat) (a b : Word) : Prop :=
  (trajectory a b).extractLsb' 34 14 = s.node ∧ ((trajectory a b).extractLsb' 32 2).toNat = k ∧ b.extractLsb' 16 16 = 0

/-- An episode is open and bound to context `ctx` of task `id` (R441). -/
def openIn (id : Nat) (ctx : BitVec 12) (y : Episode) : Bool := y.st == .open && y.bound == some (id, ctx)

theorem serves_iff (s : State) (k : Nat) (asid : BitVec 16) :
    (!(s.tower k).join.en || !(s.tower k).join.configured || (s.tower k).join.asid != asid) = false ↔ Serves s k asid := by
  simp [Serves, and_assoc]

theorem opensHere_iff (s : State) (k : Nat) (a b : Word) :
    ((trajectory a b).extractLsb' 34 14 != s.node || ((trajectory a b).extractLsb' 32 2).toNat != k || !bitsZero b 31 16) = false ↔
      OpensHere s k a b := by
  have hbits : bitsZero b 31 16 = true ↔ b.extractLsb' 16 16 = 0 := bitsZero_iff b 31 16
  rw [OpensHere, ← hbits]
  simp [and_assoc]

/-- The context holds an open episode exactly where one is found. -/
theorem boundEpisode_isSome (s : State) (k id : Nat) (ctx : BitVec 12) :
    (s.boundEpisode k id ctx).isSome = (s.tower k).join.episodes.any (openIn id ctx) := List.isSome_find?

/-- Which entry is picked changes nothing but the choices. -/
theorem State.pick_towers (s : State) (n : Nat) : (s.pick n).2.towers = s.towers := by
  unfold State.pick; split <;> rfl

theorem freeEntry_none {k : Nat} (hfull : 65536 ≤ (s.tower k).join.episodes.length) : s.freeEntry k = (none, (s.pick 65536).2) :=
  if_pos (by rwa [List.length_map])

/-- EPOPEN with no status but 0 and 2 left: the episode takes the entry that is picked, where one is free. -/
def enterEpisode (id : Nat) (t : Task) (ctx : BitVec 12) (a b c : Word) : Option Nat × State → Word × State
  | (none, s1) => (2, s1)
  | (some n, s1) => (0, (s1.withJoin t.tower fun e => { e with
      episodes := e.episodes ++ [⟨n, trajectory a b, .open, c, 0, 0, false, 0, 0, [], [], some (id, ctx), 0, false⟩] }).joinCount
        t.tower .opened 1)

theorem openEpisode_notServed (h : ¬Serves s t.tower t.tcb.asid) : s.openEpisode id t ctx a b c = (4, s) :=
  if_pos (eq_true_of_ne_false (mt (serves_iff ..).1 h))

theorem openEpisode_notHere (h : Serves s t.tower t.tcb.asid) (hhere : ¬OpensHere s t.tower a b) :
    s.openEpisode id t ctx a b c = (5, s) :=
  (if_neg (ne_true_of_eq_false ((serves_iff ..).2 h))).trans
    (if_pos (eq_true_of_ne_false (mt (opensHere_iff ..).1 hhere)))

variable (h : Serves s t.tower t.tcb.asid) (hhere : OpensHere s t.tower a b)
include h hhere

/-- An engine that opens the id for the task answers neither of the first two statuses. -/
theorem past_refusals {α : Type} (x y z : α) :
    (if !(s.tower t.tower).join.en || !(s.tower t.tower).join.configured || (s.tower t.tower).join.asid != t.tcb.asid then x
      else if (trajectory a b).extractLsb' 34 14 != s.node || ((trajectory a b).extractLsb' 32 2).toNat != t.tower || !bitsZero b 31 16
        then y else z) = z := by
  rw [(serves_iff ..).2 h, (opensHere_iff ..).2 hhere]
  rfl

theorem openEpisode_bound (hbound : (s.tower t.tower).join.episodes.any (openIn id ctx) = true) :
    s.openEpisode id t ctx a b c = (3, s) :=
  (past_refusals h hhere ..).trans (if_pos ((boundEpisode_isSome ..).trans hbound))

variable (hfree : (s.tower t.tower).join.episodes.any (openIn id ctx) = false)
include hfree

theorem openEpisode_live (hlive : ∃ y ∈ (s.tower t.tower).join.episodes, y.ident = trajectory a b) :
    s.openEpisode id t ctx a b c = (1, s) :=
  (past_refusals h hhere ..).trans <| (if_neg (ne_true_of_eq_false ((boundEpisode_isSome ..).trans hfree))).trans <|
    if_pos (List.any_eq_true.2 (hlive.imp fun _ ⟨hmem, hident⟩ => ⟨hmem, beq_iff_eq.2 hident⟩))

theorem openEpisode_new (hnew : ∀ y ∈ (s.tower t.tower).join.episodes, y.ident ≠ trajectory a b) :
    s.openEpisode id t ctx a b c = enterEpisode id t ctx a b c (s.freeEntry t.tower) := by
  have hident : ¬((s.tower t.tower).join.episodes.any fun y => y.ident == trajectory a b) = true := by simpa using hnew
  exact (past_refusals h hhere ..).trans <|
    (if_neg (ne_true_of_eq_false ((boundEpisode_isSome ..).trans hfree))).trans (if_neg hident)

end

/-! ### EPSTEP and EPEND (R443, R447) -/

section
variable {s : State} {id : Nat} {t : Task} {ctx : BitVec 12} {a b c : Word}

theorem appendStep_unbound (hnone : s.boundEpisode t.tower id ctx = none) :
    s.appendStep id t ctx a b c = (0xFFFFFFFF, s) := by
  rw [State.appendStep, hnone]

theorem appendStep_full {y : Episode} (hy : s.boundEpisode t.tower id ctx = some y)
    (hfull : (s.tower t.tower).join.room ≤ y.steps) : s.appendStep id t ctx a b c = (0xFFFFFFFF, s) := by
  simp only [State.appendStep, hy, if_pos hfull]

theorem appendStep_room {y : Episode} {pa : Nat} (hy : s.boundEpisode t.tower id ctx = some y)
    (hroom : y.steps < (s.tower t.tower).join.room) (hpa : s.recordPa t.tower y.entry y.steps 0 true = .ok pa) :
    s.appendStep id t ctx a b c = (BitVec.ofNat 32 y.steps, (s.writeWords
      (s.pageKey (s.tower t.tower).join.asid ((s.tower t.tower).join.recordVa y.entry y.steps 0)) partWriter
        [(pa, a), (pa + 4, b), (pa + 8, c), (pa + 12, y.version)]).withEpisode t.tower y.entry fun y =>
          { y with steps := y.steps + 1 }) := by
  simp only [State.appendStep, hy, if_neg (Nat.not_le.2 hroom), hpa]

theorem closeEpisode_unbound (hnone : s.boundEpisode t.tower id ctx = none) : s.closeEpisode id t ctx a b = (1, s) := by
  rw [State.closeEpisode, hnone]

theorem closeEpisode_empty {y : Episode} (hy : s.boundEpisode t.tower id ctx = some y) (hsteps : y.steps = 0) :
    s.closeEpisode id t ctx a b = (0, s.abandon t.tower y.entry) := by
  simp only [State.closeEpisode, hy, if_pos hsteps]

/-- An episode that EPEND closes, with its bootstrap value and its done value (R443, R447). -/
def closeWith (e : JoinEngine) (time : Nat) (a b : Word) (y : Episode) : Episode :=
  { y with st := .closed, bound := none, boot := a, fin := b != 0, seq := e.nextSeq, deadline := time + 1024 * e.tout }

/-- The engine takes the next close sequence number, unresolved. -/
def takeSeq (e : JoinEngine) : JoinEngine :=
  { e with nextSeq := e.nextSeq + 1, unresolved := e.unresolved ++ [e.nextSeq] }

/-- The state in which EPEND has closed an entry, before its slots are looked at. -/
def closed (s : State) (k entry : Nat) (a b : Word) : State :=
  ((s.withEpisode k entry (closeWith (s.tower k).join s.time.toNat a b)).withJoin k takeSeq).joinCount k .closed 1

theorem closed_episode? {k n : Nat} {y : Episode} (hy : s.episode? k n = some y) :
    (closed s k n a b).episode? k n = some (closeWith (s.tower k).join s.time.toNat a b y) := by
  rw [closed, State.joinCount_episode?, State.withJoin_episode? _ _ _ takeSeq fun _ => rfl]
  exact s.withEpisode_episode? k n (closeWith (s.tower k).join s.time.toNat a b) (fun _ => rfl) y hy

/-- Closing an entry leaves its reward slots as they are. -/
theorem closed_slotViews (k n m t count : Nat) : (closed s k n a b).slotViews k m t count = s.slotViews k m t count := by
  have hseq : KeepsStore takeSeq := fun _ => ⟨rfl, rfl, rfl⟩
  rw [closed, State.joinCount_slotViews, State.withJoin_slotViews _ _ hseq]
  exact s.withEpisode_slotViews k n (closeWith (s.tower k).join s.time.toNat a b) m t count

/-- A closed entry goes to SCAN with its last slot full, and stays closed till then (R447). -/
theorem settleEpisode_closed {k n : Nat} {y : Episode} {vs : List SlotView} (hy : s.episode? k n = some y) (hst : y.st = .closed)
    (hvs : s.slotViews k n 0 y.steps = .ok vs) :
    s.settleEpisode k n = if vs.all fun v => v == .full then s.startScan k n else s := by
  simp only [State.settleEpisode, hy, hst, hvs, true_or, if_true, decide_true, Bool.true_or]

theorem closeEpisode_steps {y : Episode} {vs : List SlotView} (hbound : s.boundEpisode t.tower id ctx = some y)
    (hy : s.episode? t.tower y.entry = some y) (hsteps : y.steps ≠ 0) (hvs : s.slotViews t.tower y.entry 0 y.steps = .ok vs) :
    s.closeEpisode id t ctx a b = (0, if vs.all fun v => v == .full then (closed s t.tower y.entry a b).startScan t.tower y.entry
      else closed s t.tower y.entry a b) := by
  rw [← settleEpisode_closed (closed_episode? hy) rfl ((closed_slotViews ..).trans hvs)]
  simp only [State.closeEpisode, hbound, if_neg hsteps]
  rfl

end

/-! ### RWSEND and JCFG (R438, R444) -/

section
variable {s : State} {id op j : Nat} {t : Task} {o : OpRec}

theorem exec_rwsend {f : XForm} (h : Departs s id op j t o) (hfrozen : (s.engine t.tower 3).frozen = .none) (hi : o.instr = .rwsend f)
    (hzero : (operand o.instr o.firing 1 j).word.extractLsb' 16 4 = 0) :
    exec (.enginePortDepart id op j) s = .next (s.sendReward id t o j (operand o.instr o.firing 0 j).word
      (operand o.instr o.firing 1 j).word (operand o.instr o.firing 2 j).word) := by
  have hbits : bitsZero (operand o.instr o.firing 1 j).word 19 16 = true := (bitsZero_iff _ 19 16).2 hzero
  rw [exec_depart h hfrozen hi rfl, State.departReward, hi]
  simp only [rewardLine, debitLines_of_at h.1]
  rw [← hi, if_pos hbits]

/-- A reward goes to the engine that its trajectory names: in the part itself, or over a link. -/
theorem sendReward_eq (s : State) (id : Nat) (t : Task) (o : OpRec) (j : Nat) (a b c : Word) :
    s.sendReward id t o j a b c =
      let node : BitVec 14 := (trajectory a b).extractLsb' 34 14
      let m : RewardMsg := ⟨⟨s.node, id⟩, o.id, j, t.tcb.asid, trajectory a b, (b.extractLsb' 20 12).toNat, c⟩
      let s1 := (s.withTask id fun t => { t.addReceiver node with rowsSent := true }).withOpWord id o.id j fun w =>
        { w with stage := .sent, pending := 1 }
      if node = s.node then s1.push (.rewardArrival m) else leaves s1 (.reward node m) := by
  have hstep : bits b 31 20 = (b.extractLsb' 20 12).toNat := bits_eq_extract b 31 20
  rw [← hstep]
  rfl

theorem exec_jcfg {f : XForm} {d : List Word} {s2 : State} (h : Departs s id op j t o)
    (hfrozen : (s.engine t.tower 3).frozen = .none) (hi : o.instr = .jcfg f) (hctl : jcfgCtlOk (controlWord o j) = true)
    (halign : (descriptorAccess o j).off.toNat % 32 = 0)
    (hread : s.descriptorReads t o.firing (descriptorAccess o j).seg none (wordOffsets (descriptorAccess o j).off 8) = .ok (d, s2))
    (hok : jcfgOk d = true) {r : Word} {s3 : State} (hr : s2.configureJoin t d = (r, s3)) :
    exec (.enginePortDepart id op j) s = .next (s3.completeCommand id o j (.data 0 r) (.data 0 r)) := by
  have hsound : ¬(!jcfgCtlOk (controlWord o j) || (descriptorAccess o j).off.toNat % 32 != 0) = true := by simp [hctl, halign]
  rw [exec_depart h hfrozen hi rfl, State.departReward, hi]
  simp only [rewardLine, State.departJcfg, if_neg hsound, hread, hok, Bool.not_true, Bool.false_eq_true, if_false, hr]

/-- The gamma, lambda, time-out and policy words of a descriptor are sound (R438). -/
theorem jcfgOk_of_words {d : List Word} (hgamma : (d.getD 0 0).extractLsb' 23 8 ≠ 0xFF) (hlambda : (d.getD 1 0).extractLsb' 23 8 ≠ 0xFF)
    (htout : d.getD 2 0 ≠ 0) (hpolicy : (d.getD 3 0).extractLsb' 2 14 = 0) : jcfgOk d = true := by
  have hbits : bitsZero (d.getD 3 0) 15 2 = true := (bitsZero_iff _ 15 2).2 hpolicy
  simp only [jcfgOk, hbits, bne_iff_ne.2 hgamma, bne_iff_ne.2 hlambda, bne_iff_ne.2 htout, Bool.and_self]

theorem configureJoin_refused {d : List Word} (h : t.tcb.asid ≠ (s.tower t.tower).join.asid ∨ (s.tower t.tower).join.en = false ∨
    (s.tower t.tower).join.episodes ≠ []) : s.configureJoin t d = (0, s) :=
  if_pos (by simpa [or_assoc] using h)

theorem configureJoin_accepted {d : List Word} (hasid : t.tcb.asid = (s.tower t.tower).join.asid) (hen : (s.tower t.tower).join.en = true)
    (hempty : (s.tower t.tower).join.episodes = [])
    (hlq : s.queueFits (s.tower t.tower).join.asid (d.getD 5 0 ++ d.getD 4 0 : BitVec 64).toNat none 3 0x1240 = true)
    (hoq : s.queueFits (s.tower t.tower).join.asid (d.getD 7 0 ++ d.getD 6 0 : BitVec 64).toNat (some 14) 2 0x0040 = true) :
    s.configureJoin t d = (1, s.withJoin t.tower fun e => { e with
      configured := true, gamma := d.getD 0 0, lambda := d.getD 1 0
      gl := (fmul (d.getD 0 0) (d.getD 1 0)).1, flags := (fmul (d.getD 0 0) (d.getD 1 0)).2, tout := (d.getD 2 0).toNat
      maxlag := ((d.getD 3 0).extractLsb' 16 16).toNat, ready := (d.getD 3 0).getLsbD 1, truncate := (d.getD 3 0).getLsbD 0
      lqva := d.getD 5 0 ++ d.getD 4 0, oqva := d.getD 7 0 ++ d.getD 6 0
      nextSeq := 0, unresolved := [], counters := List.replicate 11 0 }) := by
  have hlag : bits (d.getD 3 0) 31 16 = ((d.getD 3 0).extractLsb' 16 16).toNat := bits_eq_extract _ 31 16
  simp only [State.configureJoin, hasid, hen, hempty, hlq, hoq, ← hlag, bne_self_eq_false, Bool.not_true, List.isEmpty_nil, Bool.or_self,
    Bool.false_eq_true, if_false]

end

/-! ### LVSET and JSTAT (R439, R452) -/

section
variable {s : State} {t : Task}

theorem setVersion_owner (a : Word) (h : t.tcb.asid = (s.tower t.tower).join.asid) :
    s.setVersion t a = (1, s.withJoin t.tower fun e => { e with lv := a }) := if_pos h

theorem setVersion_other (a : Word) (h : t.tcb.asid ≠ (s.tower t.tower).join.asid) : s.setVersion t a = (0, s) := if_neg h

theorem jstatSel_eq (w : Word) : jstatSel w = (w.extractLsb' 0 8).toNat := bits_eq_extract w 7 0

theorem jstatSelOk_iff (w : Word) : jstatSelOk w = true ↔ w.extractLsb' 9 23 = 0 ∧ (w.extractLsb' 0 8).toNat ≤ 14 := by
  have hbits : bitsZero w 31 9 = true ↔ w.extractLsb' 9 23 = 0 := bitsZero_iff w 31 9
  rw [jstatSelOk, Bool.and_eq_true, hbits, decide_eq_true_iff, jstatSel_eq]

theorem joinStat_refused {w : Word} (h : 14 < (w.extractLsb' 0 8).toNat ∨ w.extractLsb' 9 23 ≠ 0 ∨
    t.tcb.asid ≠ (s.tower t.tower).join.asid) : s.joinStat t w = (0xFFFFFFFF, s) := by
  have hrefused : (!jstatSelOk w || t.tcb.asid != (s.tower t.tower).join.asid) = true := by
    rw [Bool.or_eq_true, Bool.not_eq_true', ← Bool.not_eq_true, jstatSelOk_iff, bne_iff_ne]
    rcases h with hsel | hzero | hasid
    · exact .inl fun ⟨_, hle⟩ => Nat.not_lt.2 hle hsel
    · exact .inl fun ⟨hz, _⟩ => hzero hz
    · exact .inr hasid
  exact if_pos hrefused

/-- JSTAT of the owner with a sound selector reads what the selector names, and clears it where CLR is set. -/
theorem joinStat_sound {w : Word} (hok : jstatSelOk w = true) (hasid : t.tcb.asid = (s.tower t.tower).join.asid) {sel : Nat}
    (hsel : jstatSel w = sel) : s.joinStat t w =
      if sel = 0 then (BitVec.ofNat 32 (s.tower t.tower).join.episodes.length, s)
      else if sel ≤ 11 then ((s.tower t.tower).join.counters.getD (sel - 1) 0,
        if w.getLsbD 8 then s.withJoin t.tower fun e => { e with counters := e.counters.set (sel - 1) 0 } else s)
      else if sel = 12 then ((s.tower t.tower).join.flags.zeroExtend 32,
        if w.getLsbD 8 then s.withJoin t.tower fun e => { e with flags := 0 } else s)
      else if sel = 13 then ((s.tower t.tower).join.lv, s)
      else ((s.tower t.tower).join.nextSeq, s) := by
  subst hsel
  exact if_neg (by simp [hok, hasid])

/-- Every value that JSTAT names has a listed selector. -/
theorem le_of_joinValue {e : JoinEngine} {sel : Nat} {v : Word} (h : joinValue e sel = some v) : sel ≤ 14 := by
  refine Nat.le_of_not_lt fun hsel => ?_
  rw [joinValue, if_neg (by omega), if_neg (by omega), if_neg (by omega), if_neg (by omega), if_neg (by omega)] at h
  cases h

theorem joinCleared_counter {sel : Nat} (h : 1 ≤ sel ∧ sel ≤ 11) (e : JoinEngine) :
    joinCleared e sel = { e with counters := e.counters.set (sel - 1) 0 } := if_pos h

theorem joinCleared_flags (e : JoinEngine) : joinCleared e 12 = { e with flags := 0 } := rfl

/-- JSTAT emits the value of its selector and clears no more than it has read (R452). -/
theorem joinStat_value {w v : Word} (hzero : w.extractLsb' 9 23 = 0) (hasid : t.tcb.asid = (s.tower t.tower).join.asid)
    (hv : joinValue (s.tower t.tower).join (w.extractLsb' 0 8).toNat = some v)
    (hclr : w.getLsbD 8 = true → 1 ≤ (w.extractLsb' 0 8).toNat ∧ (w.extractLsb' 0 8).toNat ≤ 12) :
    s.joinStat t w = (v, if w.getLsbD 8 then s.withJoin t.tower fun e => joinCleared e (w.extractLsb' 0 8).toNat else s) := by
  have hlisted := le_of_joinValue hv
  rw [joinStat_sound ((jstatSelOk_iff w).2 ⟨hzero, hlisted⟩) hasid (jstatSel_eq w)]
  generalize (w.extractLsb' 0 8).toNat = sel at hv hclr hlisted ⊢
  have hkept : ∀ x : State, ¬(1 ≤ sel ∧ sel ≤ 12) → (if w.getLsbD 8 then x else s) = s := fun _ hsel => if_neg (mt hclr hsel)
  unfold joinValue at hv
  split at hv
  next h0 => rw [if_pos h0, hkept _ (by omega), Option.some.inj hv]
  next h0 =>
    rw [if_neg h0]
    split at hv
    next h11 =>
      rw [if_pos h11, List.getD_eq_getElem?_getD, hv, Option.getD_some]
      simp only [joinCleared_counter ⟨Nat.pos_of_ne_zero h0, h11⟩]
    next h11 =>
      rw [if_neg h11]
      split at hv
      next h12 => simp only [h12, if_true, joinCleared_flags, Option.some.inj hv]
      next h12 =>
        rw [if_neg h12, hkept _ (by omega)]
        split at hv
        next h13 => rw [if_pos h13, Option.some.inj hv]
        next h13 =>
          rw [if_pos (by omega)] at hv
          rw [if_neg h13, Option.some.inj hv]

end

end Sys2Proof.Machine
end

section
/-!
SUPPORT. The commands of the reward join engine as one family (O50).
-/

open Sys2Proof.Claims

namespace Sys2Proof.Machine

/-- Settles O50: each command leaves the port for its engine, and its status and its effect are those of the first case of its
rule that applies. -/
theorem rewardCommandsPerform : Obligations.RewardCommandsPerform := by
  unfold Obligations.RewardCommandsPerform
  intro s id op j t o h hfrozen
  refine ⟨?epopen, ?epstep, ?epend, ?rwsend, ?lvset, ?jstat, ?jcfg⟩
  case epopen =>
    intro f hi
    refine ⟨fun hnot => exec_joinAnswer h hfrozen hi rfl (openEpisode_notServed ?_), fun hen hconf hasid => ?_⟩
    · rintro ⟨hen, hconf, hasid⟩
      simp [hen, hconf, hasid] at hnot
    have hserves : Serves s t.tower t.tcb.asid := ⟨hen, hconf, hasid⟩
    refine ⟨fun hnot => exec_joinAnswer h hfrozen hi rfl (openEpisode_notHere hserves hnot),
      fun hhere hbound => exec_joinAnswer h hfrozen hi rfl (openEpisode_bound hserves hhere hbound),
      fun hhere hfree hlive => exec_joinAnswer h hfrozen hi rfl (openEpisode_live hserves hhere hfree hlive),
      fun hhere hfree hnew => ⟨fun hfull => ?full, fun n s1 hn => ?opened⟩⟩
    case full =>
      refine ⟨(s.pick 65536).2, s.pick_towers _, s.pick_mem _, exec_joinAnswer h hfrozen hi rfl ?_⟩
      rw [openEpisode_new hserves hhere hfree hnew, freeEntry_none hfull, enterEpisode]
    case opened =>
      refine exec_joinAnswer h hfrozen hi rfl ?_
      rw [openEpisode_new hserves hhere hfree hnew, hn, enterEpisode]
  case epstep =>
    intro f hi
    exact ⟨fun hnone => exec_joinAnswer h hfrozen hi rfl (appendStep_unbound hnone), fun y hy =>
      ⟨fun hfull => exec_joinAnswer h hfrozen hi rfl (appendStep_full hy hfull),
        fun pa hroom hpa => exec_joinAnswer h hfrozen hi rfl (appendStep_room hy hroom hpa)⟩⟩
  case epend =>
    intro f hi
    refine ⟨fun hnone => exec_joinAnswer h hfrozen hi rfl (closeEpisode_unbound hnone), fun y hbound hy =>
      ⟨fun hsteps => exec_joinAnswer h hfrozen hi rfl (closeEpisode_empty hbound hsteps),
        fun vs hsteps hvs => ⟨fun hsome => ?missing, fun hall => ?full⟩⟩⟩
    case missing =>
      refine exec_joinAnswer h hfrozen hi rfl ((closeEpisode_steps hbound hy hsteps hvs).trans ?_)
      rw [if_neg (by simpa using hsome)]
      rfl
    case full =>
      refine exec_joinAnswer h hfrozen hi rfl ((closeEpisode_steps hbound hy hsteps hvs).trans ?_)
      rw [if_pos (by simpa using hall)]
      rfl
  case rwsend =>
    intro f hi hzero
    have hop : o.id = op := by
      obtain ⟨⟨-, -, -, -, -, -, -, hop, -⟩, -⟩ := h
      exact hop
    rw [exec_rwsend h hfrozen hi hzero, sendReward_eq, hop]
  case lvset =>
    intro f hi
    exact ⟨fun hother => exec_joinAnswer h hfrozen hi rfl (setVersion_other _ hother),
      fun howner => exec_joinAnswer h hfrozen hi rfl (setVersion_owner _ howner)⟩
  case jstat =>
    intro f hi
    exact ⟨fun hrefused => exec_joinAnswer h hfrozen hi rfl (joinStat_refused hrefused),
      fun v hzero hasid hv hclr => exec_joinAnswer h hfrozen hi rfl (joinStat_value hzero hasid hv hclr)⟩
  case jcfg =>
    intro f d s2 hi a w finite hctl halign hread htowers hgamma hlambda htout hpolicy
    have hjoin : (s2.tower t.tower).join = (s.tower t.tower).join := by rw [State.tower, htowers, State.tower]
    have configures {r s3} hr := exec_jcfg h hfrozen hi hctl halign hread (jcfgOk_of_words hgamma hlambda htout hpolicy) (r := r) (s3 := s3) hr
    refine ⟨fun hrefused => configures (configureJoin_refused (hjoin ▸ hrefused)), fun hasid hen hempty hlq hoq => ?_⟩
    rw [← hjoin] at hasid hen hempty hlq hoq
    exact configures (configureJoin_accepted hasid hen hempty hlq hoq)

end Sys2Proof.Machine
end
